-- ==== Sys2Proof/Word.lean ====
section
/-! DEFINITION. The words of the Evsora TM26: the 32-bit memory word, the byte, the sensor ID and the
part's time in milliseconds (spec/00_scope.md, Conventions). -/

namespace Sys2Proof

/-- A word of the memory bus, 32 bits (00_scope, Memory and the part window). -/
abbrev Word := BitVec 32

/-- One byte of the memory bus or of a telegram. -/
abbrev Byte := BitVec 8

/-- A sensor ID: a 32-bit number (00_scope, Sensor IDs). -/
abbrev SensorId := BitVec 32

/-- A part time, in ms of the internal timebase of 1 ms (00_scope, Time). -/
abbrev Time := Nat

end Sys2Proof
end

