-- ==== Sys2Proof/Syntax.lean ====
section
/-! DEFINITION. The commands of the TM26: one constructor of Instr for each row of spec/opcode_table.json.
The part is a block, so a command is a step of spec/95_what_each_step_holds.md: an edge of a line, the end of
a timer of the part, a delivery of a receiver, a step of the memory path, or a host transaction. The first
operand of every command is the time, in ms, that has passed on the timebase since the command before it. -/

namespace Sys2Proof

/-- A receiver lane, A to D (R26). -/
inductive Lane where
  | a | b | c | d
  deriving DecidableEq, Repr

/-- A position by its index: 0 to 23 are 1LO to 6RO, 24 is S1 and 25 is S2 (R1). -/
abbrev Pos := Fin 26

/-- A trigger coil by its number, (axle − 1) × 2, plus 1 for the right side: 1L is 0 and 6R is 11 (R59, 11.3). -/
abbrev Coil := Fin 12

/-- An axle by its number less one. -/
abbrev Axle := Fin 6

/-- The two conditions that put the part in RESET (R151). -/
inductive ResetCause where
  /-- RESET_N is low. -/
  | resetLine
  /-- VDD has fallen below 1.62 V. -/
  | supply
  deriving DecidableEq, Repr

/-- One word of a host write as it stands on the bus: the byte enables that are on (bit i is byte lane i) and
the data. -/
structure HostWord where
  enables : BitVec 4
  data : Word
  deriving DecidableEq, Repr

/-- The data of a host write: a single word or an aligned burst of four words (R163). -/
inductive HostData where
  | single (w : HostWord)
  | burst (w0 w1 w2 w3 : HostWord)
  deriving DecidableEq, Repr

/-- The length of a host read (R163). -/
inductive ReadShape where
  | single | burst
  deriving DecidableEq, Repr

/-- The commands, one constructor per row of spec/opcode_table.json, in the table's order. `dt` is the time in
ms since the command before. The command rows (BIND and so on) are host writes of the command word: `tag`,
`position` and `upper` are the word's bits 15–8, 23–16 and 31–24, and `enables` the byte enables of the write. -/
inductive Instr where
  /-- RESET_ENTRY (R151). -/
  | resetEntry (dt : Nat) (cause : ResetCause)
  /-- RESET_EXIT (R151). -/
  | resetExit (dt : Nat)
  /-- HOST_UP_RISE (R152). -/
  | hostUpRise (dt : Nat)
  /-- HOST_UP_FALL (R152). -/
  | hostUpFall (dt : Nat)
  /-- IGNITION_RISE (R82, R153). -/
  | ignitionRise (dt : Nat)
  /-- IGNITION_FALL (R153). -/
  | ignitionFall (dt : Nat)
  /-- TRAILER_PRESENT_RISE (R83, R153). -/
  | trailerPresentRise (dt : Nat)
  /-- TRAILER_PRESENT_FALL (R18, R85, R153). -/
  | trailerPresentFall (dt : Nat)
  /-- WINDOW_BASE_CHANGE (R163): the new value on WB3 to WB0. -/
  | windowBaseChange (dt : Nat) (straps : BitVec 4)
  /-- LANE_SETTLING_END (R26). -/
  | laneSettlingEnd (dt : Nat) (lane : Lane)
  /-- DELIVERY (R27): the bytes of the run, how many ms ago its last frame byte ended, and, for a frame that
  ended in the very millisecond in which the lane entered ON, whether the lane entered ON first. -/
  | delivery (dt : Nat) (lane : Lane) (bytes : List Byte) (sinceEnd : Nat) (onFirst : Bool)
  /-- ENTRY_SETTLE (R40). -/
  | entrySettle (dt : Nat)
  /-- FIRE_START (R65). -/
  | fireStart (dt : Nat)
  /-- BURST_END (R60). -/
  | burstEnd (dt : Nat) (coil : Coil)
  /-- RECOVERING_END (R60). -/
  | recoveringEnd (dt : Nat) (coil : Coil)
  /-- OPEN_PERIOD_END (R67), of the record of the coil. -/
  | openPeriodEnd (dt : Nat) (coil : Coil)
  /-- CLASSIFICATION (R71), of the record of the coil. -/
  | classification (dt : Nat) (coil : Coil)
  /-- SILENCE_DEADLINE_EXPIRY (R97). -/
  | silenceDeadlineExpiry (dt : Nat) (position : Pos)
  /-- TIPPING_SETTLE_END (R123). -/
  | tippingSettleEnd (dt : Nat)
  /-- ESCALATION_EXPIRY (R129). -/
  | escalationExpiry (dt : Nat)
  /-- LAMP_FLASH_HALF_PERIOD (R127). -/
  | lampFlashHalfPeriod (dt : Nat)
  /-- SWEEP_EXPIRY (R134). -/
  | sweepExpiry (dt : Nat)
  /-- GROUP_CAPTURE (R136). -/
  | groupCapture (dt : Nat)
  /-- KEPT_ENTRY_REOFFER (R168). -/
  | keptEntryReoffer (dt : Nat)
  /-- HEAD_ISSUE (R172). -/
  | headIssue (dt : Nat)
  /-- HEAD_OVERDUE (R172). -/
  | headOverdue (dt : Nat)
  /-- PART_ACCESS_COMPLETE (R167). -/
  | partAccessComplete (dt : Nat)
  /-- LISTEN_WINDOW_START (R157). -/
  | listenWindowStart (dt : Nat)
  /-- LISTEN_WINDOW_END (R157). -/
  | listenWindowEnd (dt : Nat)
  /-- DEEP_WATCH_EXPIRY (R157). -/
  | deepWatchExpiry (dt : Nat)
  /-- HOST_READ (R165): the address on HA23–HA0, the byte enables, one set for all words (DESIGN CHOICE, log 56), and the
  length. -/
  | hostRead (dt : Nat) (addr : BitVec 24) (enables : BitVec 4) (shape : ReadShape)
  /-- HOST_WRITE (R163). -/
  | hostWrite (dt : Nat) (addr : BitVec 24) (data : HostData)
  /-- SUPPRESSED_WRITE (R166). -/
  | suppressedWrite (dt : Nat) (addr : BitVec 24) (data : HostData)
  /-- SETTINGS_WRITE (R175): the offset in the settings page. -/
  | settingsWrite (dt : Nat) (offset : BitVec 10) (data : HostData)
  /-- AXLE_LAYOUT (R3): a write of word 0000. -/
  | axleLayout (dt : Nat) (w : HostWord)
  /-- VEHICLE_STATE (R123): a write of word 001C. -/
  | vehicleState (dt : Nat) (w : HostWord)
  /-- NOTICE_READ_INDEX (R184): a write of word 0100. -/
  | noticeReadIndex (dt : Nat) (w : HostWord)
  /-- PAGE_HOLD (R141): a write of word 0104. -/
  | pageHold (dt : Nat) (w : HostWord)
  /-- LIMIT_LOADER_INDEX (R178): a write of word 0110. -/
  | limitLoaderIndex (dt : Nat) (w : HostWord)
  /-- LIMIT_LOADER_DATA (R179): a write of word 0114. -/
  | limitLoaderData (dt : Nat) (w : HostWord)
  /-- BIND (R10). -/
  | bind (dt : Nat) (tag position upper : Byte) (enables : BitVec 4)
  /-- UNBIND (R12). -/
  | unbind (dt : Nat) (tag position upper : Byte) (enables : BitVec 4)
  /-- SWAP (R13). -/
  | swap (dt : Nat) (tag position upper : Byte) (enables : BitVec 4)
  /-- LOCATE (R84). -/
  | locate (dt : Nat) (tag position upper : Byte) (enables : BitVec 4)
  /-- RECHECK (R84). -/
  | recheck (dt : Nat) (tag position upper : Byte) (enables : BitVec 4)
  /-- ACK (R125). -/
  | ack (dt : Nat) (tag position upper : Byte) (enables : BitVec 4)
  /-- FORGET_CANDIDATES (R57). -/
  | forgetCandidates (dt : Nat) (tag position upper : Byte) (enables : BitVec 4)
  /-- COMMAND_CODE_NAMES_NO_COMMAND (R180): the code is written too. -/
  | commandCodeNamesNoCommand (dt : Nat) (code tag position upper : Byte) (enables : BitVec 4)
  deriving DecidableEq, Repr

end Sys2Proof
end

