-- ==== Sys2Proof/WellFormed.lean ====
section
/-! DEFINITION. Which operands a command of the TM26 can have on the hardware: alignment of host transactions
(R163), the offset of a settings word with no row of its own (R175), a code that names no command (R180), a
delivery whose idle gap of 2 ms has ended (R27). -/

namespace Sys2Proof

/-- R163: a single word stands at a multiple of 4 and a burst of four at a multiple of 16. -/
def HostData.aligned (d : HostData) (addr : Nat) : Bool :=
  match d with
  | .single _ => addr % 4 == 0
  | .burst _ _ _ _ => addr % 16 == 0

/-- R163, for a read. -/
def ReadShape.aligned (r : ReadShape) (addr : Nat) : Bool :=
  match r with
  | .single => addr % 4 == 0
  | .burst => addr % 16 == 0

/-- The settings words that have a row of their own in the table (11.2): the axle layout, the vehicle state and
the live words but for the command argument. -/
def ownRowOffsets : List Nat := [0x000, 0x01C, 0x100, 0x104, 0x10C, 0x110, 0x114]

/-- R175: the offset of a SETTINGS_WRITE of one word names a word with no row of its own. A burst takes its four
words as four writes and may cover any of them. -/
def settingsOffsetOk (offset : Nat) (d : HostData) : Bool :=
  match d with
  | .single _ => !(ownRowOffsets.contains offset)
  | .burst _ _ _ _ => true

/-- R180: the codes 1 to 7 name commands. -/
def codeNamesCommand (code : Nat) : Bool := 1 ≤ code && code ≤ 7

/-- The operands of the command are ones that the hardware can present. -/
def Instr.wf : Instr → Bool
  | .resetEntry _ _ => true
  | .resetExit _ => true
  | .hostUpRise _ => true
  | .hostUpFall _ => true
  | .ignitionRise _ => true
  | .ignitionFall _ => true
  | .trailerPresentRise _ => true
  | .trailerPresentFall _ => true
  | .windowBaseChange _ _ => true
  | .laneSettlingEnd _ _ => true
  | .delivery _ _ bytes sinceEnd _ => 2 ≤ sinceEnd && !bytes.isEmpty
  | .entrySettle _ => true
  | .fireStart _ => true
  | .burstEnd _ _ => true
  | .recoveringEnd _ _ => true
  | .openPeriodEnd _ _ => true
  | .classification _ _ => true
  | .silenceDeadlineExpiry _ _ => true
  | .tippingSettleEnd _ => true
  | .escalationExpiry _ => true
  | .lampFlashHalfPeriod _ => true
  | .sweepExpiry _ => true
  | .groupCapture _ => true
  | .keptEntryReoffer _ => true
  | .headIssue _ => true
  | .headOverdue _ => true
  | .partAccessComplete _ => true
  | .listenWindowStart _ => true
  | .listenWindowEnd _ => true
  | .deepWatchExpiry _ => true
  | .hostRead _ addr _ shape => shape.aligned addr.toNat
  | .hostWrite _ addr data => data.aligned addr.toNat
  | .suppressedWrite _ addr data => data.aligned addr.toNat
  | .settingsWrite _ offset data => data.aligned offset.toNat && settingsOffsetOk offset.toNat data
  | .axleLayout _ _ => true
  | .vehicleState _ _ => true
  | .noticeReadIndex _ _ => true
  | .pageHold _ _ => true
  | .limitLoaderIndex _ _ => true
  | .limitLoaderData _ _ => true
  | .bind _ _ _ _ _ => true
  | .unbind _ _ _ _ _ => true
  | .swap _ _ _ _ _ => true
  | .locate _ _ _ _ _ => true
  | .recheck _ _ _ _ _ => true
  | .ack _ _ _ _ _ => true
  | .forgetCandidates _ _ _ _ _ => true
  | .commandCodeNamesNoCommand _ code _ _ _ _ => !(codeNamesCommand code.toNat)

end Sys2Proof
end

