-- ==== Sys2Proof/Decode.lean ====
section
/-! DEFINITION. The decoder over the rows of spec/opcode_table.json that give bits. The table of this part gives
no row any bits (every row's fields are empty), so no word spells a command. -/

namespace Sys2Proof

/-- The command that a word of nbits bits spells by the table's bits: none, for no row of the table gives bits. -/
def decodeTableWord (_nbits _w : Nat) : Option Instr := none

end Sys2Proof
end

