-- ==== Sys2Proof/Config.lean ====
section
/-! DEFINITION. The numbers that the spec fixes for this part and that no setting changes. The part has no
free value: see the notes on what the manual leaves open in INVENTORY.md. -/

namespace Sys2Proof.Config

/-- R26: a lane stays SETTLING for 20 ms. -/
def laneSettling : Nat := 20
/-- R27: a delivery of more than 17 bytes is one bad frame. -/
def maxDelivery : Nat := 17
/-- R37: places in the recent telegram list. -/
def recentPlaces : Nat := 24
/-- R40: an entry settles 120 ms after its first arrival. -/
def settleSpan : Nat := 120
/-- R41: the late-repeat window, in ms. -/
def lateRepeat : Nat := 1000
/-- R35: the quiet count saturates at 3. -/
def quietLimit : Nat := 3
/-- R45: places in the candidate list. -/
def candidatePlaces : Nat := 32
/-- R60: the burst lasts 10 ms. -/
def burst : Nat := 10
/-- R60: RECOVERING lasts 250 ms from the end of the burst. -/
def recovering : Nat := 250
/-- R63: spacing from the start of the most recent fire on any coil. -/
def anySpacing : Nat := 60
/-- R63: spacing from the most recent fire start on the other side of the same axle. -/
def axleSpacing : Nat := 300
/-- R63: the rolling window of the fire log. -/
def rollingWindow : Nat := 2000
/-- R64: the fire log holds the 5 most recent fire starts. -/
def logPlaces : Nat := 5
/-- R67: the number of fire records. -/
def fireRecords : Nat := 4
/-- R67: entries of a response list. -/
def responsePlaces : Nat := 4
/-- R67: a record is CLOSING for 120 ms. -/
def closing : Nat := 120
/-- R127: a half-period of FLASH. -/
def halfPeriod : Nat := 500
/-- R140: the deferral that is made anyway. -/
def lastDeferral : Nat := 3
/-- R157: length of a listen window. -/
def listenWindow : Nat := 2000
/-- R157: listen period in WATCH. -/
def watchPeriod : Nat := 30000
/-- R157: listen period in DEEP WATCH. -/
def deepPeriod : Nat := 120000
/-- R160: places in the parked notice list. -/
def parkedPlaces : Nat := 16
/-- R167: places in the outbound queue. -/
def queuePlaces : Nat := 48
/-- R168: the reserve that PUBLISH, TREND and LOAD entries leave free. -/
def noticeReserve : Nat := 8
/-- R187: slots of the alert detail list. -/
def detailPlaces : Nat := 14
/-- R34, R69, R134, R166: the largest value of the 16-bit saturating counts. -/
def count16 : Nat := 65535
/-- R46, R94: the largest value of the 8-bit saturating counts. -/
def count8 : Nat := 255

end Sys2Proof.Config
end

