-- ==== Sys2Proof/Machine/State.lean ====
section
/-! DEFINITION. The state of the TM26 as plain data, block by block (00_scope, Block overview), the reset state,
and the reasons a step can stop. Every field's docstring names the rule of spec/ that gives it. -/

namespace Sys2Proof.Machine

/-! ### Names of the spec's enumerations -/

/-- The operating states (R150). -/
inductive OpState where
  | reset | loading | run | watch | deepWatch
  deriving DecidableEq, Repr

/-- The binding states (R5). -/
inductive BindState where
  | vacant | unlearned | locating | bound | suspect | conflict | detached
  deriving DecidableEq, Repr

/-- The kind of an axle (section 1.3). -/
inductive AxleKind where
  | absent | single | twin
  deriving DecidableEq, Repr

/-- The telegram kinds (R33). -/
inductive TelegramKind where
  | periodic | alert | triggered | parked
  deriving DecidableEq, Repr

/-- The telegram formats (R28). -/
inductive Format where
  | short | long
  deriving DecidableEq, Repr

/-- The alert kinds, in the bit order of the ACK mask (R125). -/
inductive AlertKind where
  | low | high | hot | leak | mismatch | silent | sensor
  deriving DecidableEq, Repr

/-- The levels of an alert record (R117). -/
inductive Level where
  | warn | alarm
  deriving DecidableEq, Repr

/-- The states of an alert record (R117). -/
inductive AlertState where
  | clear | pending | active | clearing
  deriving DecidableEq, Repr

/-- The purposes of a location request (R61). -/
inductive Purpose where
  | command | locate | attach | recheck
  deriving DecidableEq, Repr

/-- The two status pages (R132). -/
inductive Page where
  | a | b
  deriving DecidableEq, Repr

/-- The hold of the front page (R132). -/
inductive Hold where
  | released | held | overridden
  deriving DecidableEq, Repr

/-- The origins of outbound queue entries (section 9.4). -/
inductive Origin where
  | publish | trend | notice | load
  deriving DecidableEq, Repr

/-- The outcomes of a command, in the order of their codes (11.2). -/
inductive CmdOutcome where
  | none | done | queued | refusedRange | refusedState | badWrite
  deriving DecidableEq, Repr

/-- The kinds of notice, in the order of their codes 1 to 20 (11.4). -/
inductive NoticeKind where
  | alertRaised | alertEscalated | alertCleared | alertWithdrawn
  | bound | unbound | replaced | moved | swapped | conflict | locateFailed | recheckInconclusive
  | trailerDetached | trailerAttached | candidatePersistent
  | laneQuiet | laneRestored | holdOverridden
  | settingRefused | limitRefused
  deriving DecidableEq, Repr

/-- The 35 non-live words of the settings page, in ascending offset (11.2). -/
inductive SettingWord where
  | axleLayout | assign0 | assign1 | assign2 | assign3 | laneMask | attentionMask | vehicle
  | fireSpeed | responseWindow | retryLimit | twinMargin | rollingThreshold | persistSpan | ageLimit
  | rollingRange | parkedRange | driftLimit | driftStep | silenceMultiple | patm | persistCount | clearCount
  | pressureHyst | tempHyst | mismatchLimit | leakLimits | tipSettle | ackLimit | escAction
  | sweepPeriod | historyDepth | trendSpan | viewLag | deepDelay
  deriving DecidableEq, Repr

/-- The six live words of the settings page, in ascending offset from 0100 (R177, 11.2). -/
inductive LiveWord where
  | readIndex | pageHold | argument | command | loaderIndex | loaderData
  deriving DecidableEq, Repr

/-! ### Values per lane and per alert kind -/

/-- One value for each lane A to D. -/
structure Lanes (α : Type) where
  a : α
  b : α
  c : α
  d : α
  deriving DecidableEq, Repr

/-- A temperature as a sample or a candidate carries it: absent (SHORT), invalid (code 255) or °C (R23, R46). -/
inductive Temp where
  | absent | invalid | celsius (t : Int)
  deriving DecidableEq, Repr

/-- An absolute pressure: invalid for code 0, over range for code 1023, else in kPa (R23). -/
inductive AbsPressure where
  | invalid | overRange | kPa (p : Nat)
  deriving DecidableEq, Repr

/-! ### Intake unit (chapter 2) -/

/-- The state of a lane (R26). SETTLING holds its end; ON holds the time it was entered, which decides whether a
frame ended while the lane was ON (R27). -/
inductive LaneState where
  | off | settling (ends : Time) | on (since : Time)
  deriving DecidableEq, Repr

/-- A lane: its state, frame counts (R34), quiet count and quiet flag (R35). -/
structure LaneRec where
  state : LaneState
  good : Nat
  bad : Nat
  quietCount : Nat
  quiet : Bool
  deriving DecidableEq, Repr

/-- The decoded fields of a good frame (R31, R32). The temperature code, LF level and trigger echo are absent in
a SHORT telegram. -/
structure Payload where
  format : Format
  kind : TelegramKind
  seq : BitVec 4
  motion : Bool
  id : SensorId
  code : BitVec 10
  battery : Bool
  fault : Bool
  lf : Option (BitVec 4)
  tempCode : Option (BitVec 8)
  echo : Option (BitVec 4)
  deriving DecidableEq, Repr

/-- An entry of the recent telegram list (R37). The lanes heard are those with a best level. -/
structure RecentEntry where
  payload : Payload
  firstArrival : Time
  heard : Lanes (Option (BitVec 8))
  deriving DecidableEq, Repr

/-- The intake unit (R26, R34, R37). -/
structure Intake where
  lanes : Lanes LaneRec
  merged : Nat
  recent : List RecentEntry
  deriving DecidableEq, Repr

/-! ### Position table, arrival tracker and alert records (chapters 1, 5, 6) -/

/-- An alert record (R117). -/
structure AlertRec where
  state : AlertState
  level : Level
  acked : Bool
  pendingCount : Nat
  clearCount : Nat
  stamp : BitVec 16
  value : Int
  deriving DecidableEq, Repr

/-- The seven alert records of a position (R117). -/
structure Alerts where
  low : AlertRec
  high : AlertRec
  hot : AlertRec
  leak : AlertRec
  mismatch : AlertRec
  silent : AlertRec
  sensor : AlertRec
  deriving DecidableEq, Repr

/-- The last sample group of a position record but for the last valid temperature (R23). `cold` is none when the
cold pressure is invalid. -/
structure Sample where
  code : BitVec 10
  absolute : AbsPressure
  temp : Temp
  cold : Option Nat
  motion : Bool
  battery : Bool
  fault : Bool
  kind : TelegramKind
  seq : BitVec 4
  arrival : Time
  accepted : Time
  deriving DecidableEq, Repr

/-- A position record (field table of section 1.2) with the arrival tracker's values for it (R88). The index is
the position code (R1). -/
structure PosRec where
  /-- binding state (R5) -/
  state : BindState
  /-- sensor ID, or absent (R5) -/
  id : Option SensorId
  /-- binding epoch, 0 to 255, wrapping (R7) -/
  epoch : BitVec 8
  /-- last sample, or absent (R23) -/
  sample : Option Sample
  /-- last valid temperature, or none (R23) -/
  lastTemp : Option Int
  /-- home lane, or none (R23) -/
  homeLane : Option Lane
  /-- expected interval E in sixteenths of a second, or absent (R88) -/
  interval : Option Nat
  /-- drift count (R88) -/
  drift : Int
  /-- base time of the silence deadline, or absent; the deadline is base + M × E (R88, R96) -/
  deadline : Option Time
  /-- missed telegrams this sweep, 0 to 255, saturating (R88) -/
  missed : Nat
  /-- interval reference, or absent (R88) -/
  reference : Option Time
  /-- the motion flag that the candidate list handed over at binding, or none (R89) -/
  handedMotion : Option Bool
  /-- the SILENT condition (R99) -/
  silent : Bool
  /-- leak rate in tenths of a kPa per minute, or unavailable (R146) -/
  leak : Option Int
  /-- move claim, or absent (R20) -/
  claim : Option SensorId
  /-- recheck-outstanding flag (R21) -/
  recheck : Bool
  /-- the seven alert records (R117) -/
  alerts : Alerts
  deriving DecidableEq, Repr

/-! ### Candidate list (chapter 3) -/

/-- The last trigger answer of a candidate (R49). -/
structure TriggerAnswer where
  coil : Coil
  code : BitVec 4
  lf : BitVec 4
  deriving DecidableEq, Repr

/-- A candidate entry (R46). -/
structure Candidate where
  id : SensorId
  firstHeard : Time
  lastHeard : Time
  telegrams : Nat
  rolling : Nat
  still : Nat
  hits : Lanes Nat
  sums : Lanes Nat
  motion : Bool
  code : BitVec 10
  temp : Temp
  answer : Option TriggerAnswer
  persistent : Bool
  stationary : Bool
  claimed : Bool
  deriving DecidableEq, Repr

/-! ### Trigger unit (chapter 4) -/

/-- The state of a coil (R60). FIRING holds the start of the burst and the code it carries, RECOVERING its end. -/
inductive CoilState where
  | idle | firing (start : Time) (code : BitVec 4) | recovering (ends : Time)
  deriving DecidableEq, Repr

/-- A location request (R61). -/
structure Request where
  coil : Coil
  purpose : Purpose
  attempts : Nat
  tag : Byte
  deriving DecidableEq, Repr

/-- An entry of a response list (R67). -/
structure Response where
  id : SensorId
  lf : BitVec 4
  deriving DecidableEq, Repr

/-- A fire record that is OPEN or, when `closing`, CLOSING (R67). The burst ends 10 ms after the start. -/
structure FireRec where
  coil : Coil
  code : BitVec 4
  purpose : Purpose
  tag : Byte
  attempts : Nat
  start : Time
  window : Nat
  closing : Bool
  responses : List Response
  overfull : Bool
  outOfCare : List Pos
  deriving DecidableEq, Repr

/-- The trigger unit (R60, R61, R64, R66, R67, R69). The records that are free are not listed: a record stands
for its coil, which has at most one (R63). -/
structure Trigger where
  coils : Vector CoilState 12
  queue : List Request
  records : List FireRec
  /-- fire log, oldest first (R64) -/
  log : List Time
  /-- latest fire start of each coil (R64) -/
  lastStart : Vector (Option Time) 12
  /-- last issued trigger code (R66) -/
  lastCode : BitVec 4
  /-- stale-answer count (R69) -/
  stale : Nat
  deriving DecidableEq, Repr

/-! ### Evaluation unit (chapter 6) -/

/-- A limit set with its loaded flag (R104). -/
structure LimitSet where
  target : Int
  lowWarn : Int
  lowAlarm : Int
  highWarn : Int
  hotWarn : Int
  hotAlarm : Int
  loaded : Bool
  deriving DecidableEq, Repr

/-- The escalation timer (R128); RUNNING holds its expiry. -/
inductive Escalation where
  | idle | running (expires : Time) | expired
  deriving DecidableEq, Repr

/-- The lamp (R127); FLASH holds whether the output is driven and the end of the half-period. -/
inductive Lamp where
  | off | on | flash (driven : Bool) (ends : Time)
  deriving DecidableEq, Repr

/-- The evaluation unit but for the alert records, which stand in the position records. -/
structure Eval where
  limits : Vector LimitSet 16
  /-- tipping settle timer: IDLE, or its end (R123) -/
  settleEnd : Option Time
  escalation : Escalation
  lamp : Lamp
  deriving DecidableEq, Repr

/-! ### Sweep unit (chapter 7) -/

/-- An item of the alert detail list (R187). -/
structure DetailItem where
  position : Pos
  kind : AlertKind
  level : Level
  stamp : BitVec 16
  value : Int
  deriving DecidableEq, Repr

/-- A write kept by the sweep unit until the queue admits it (R136, R168): window offset and data. -/
structure KeptWrite where
  offset : Nat
  data : Word
  deriving DecidableEq, Repr

/-- A publication IN PROGRESS (R132, R135, R136). -/
structure Publication where
  number : BitVec 16
  /-- sweep count of the expiry that started it (R137) -/
  stamp : BitVec 16
  column : Nat
  page : Page
  /-- groups captured so far: 26 positions, candidates, limits, header (R136) -/
  groups : Nat
  /-- writes of the captured group that are not yet added (R136) -/
  kept : List KeptWrite
  /-- detail items frozen by the position captures, in capture order (R187) -/
  items : List DetailItem
  /-- the history was restarted while it was in progress (R139, R144) -/
  restarted : Bool
  deriving DecidableEq, Repr

/-- A pending trend read: its position, its column and the words returned so far (R145, R146). -/
structure TrendRead where
  position : Pos
  column : Nat
  word0 : Option Word
  word1 : Option Word
  deriving DecidableEq, Repr

/-- The sweep unit (R132). -/
structure Sweep where
  /-- sweep timer: STOPPED, or its next expiry -/
  timer : Option Time
  count : BitVec 16
  skipped : Nat
  number : BitVec 16
  publication : Option Publication
  head : Nat
  written : Nat
  front : Page
  published : Bool
  hold : Hold
  deferredFlip : Bool
  deferredCount : Nat
  trend : List TrendRead
  /-- window offsets of trend reads not yet added to the queue (R145) -/
  keptReads : List Nat
  deriving DecidableEq, Repr

/-! ### Notices (chapter 10) -/

/-- A notice (R182). `position` none is FF. -/
structure Notice where
  kind : NoticeKind
  position : Option Pos
  alert : Option (AlertKind × Level)
  tag : Byte
  id : SensorId
  value : Word
  stamp : BitVec 16
  deriving DecidableEq, Repr

/-- The notice writer (R183, R185). The host's read index is the copy of the notice read index word (R184). -/
structure NoticeWriter where
  write : BitVec 7
  completed : BitVec 7
  lost : Bool
  /-- notices placed in the ring whose last write has not completed, oldest first (R183, R185) -/
  inRing : List Notice
  attention : Bool
  deriving DecidableEq, Repr

/-! ### Memory path (chapter 9) -/

/-- The kind of an outbound queue entry (R167). -/
inductive Access where
  | write (data : Word) | read
  deriving DecidableEq, Repr

/-- An outbound queue entry (R167). -/
structure QEntry where
  access : Access
  offset : Nat
  origin : Origin
  deriving DecidableEq, Repr

/-- A part access on the memory bus (R172): the entry, its memory address, and whether its completion is still to be
reported to its producer (R173, R174). -/
structure Issued where
  entry : QEntry
  addr : Nat
  reported : Bool
  deriving DecidableEq, Repr

/-- What the region decoder makes of a host write (R164). -/
inductive WriteClass where
  | passed | settings | suppressed
  deriving DecidableEq, Repr

/-- A host transaction as the host presents it (R163). -/
inductive HostTxn where
  | read (addr : Nat) (enables : BitVec 4) (words : Nat)
  | write (addr : Nat) (words : List HostWord)
  deriving DecidableEq, Repr

/-- A host transaction decoded and translated at its start (R163, R165): where it is carried. A read holds the final
address and, in the window, the final window offset (R171); a write its class, its address and its window offset. -/
inductive BusTxn where
  | read (addr : Nat) (offset : Option Nat) (enables : BitVec 4) (words : Nat)
  | write (cls : WriteClass) (addr : Nat) (offset : Nat) (words : List HostWord)
  deriving DecidableEq, Repr

/-- The memory path (R166, R167, R168, R172). -/
structure Path where
  queue : List QEntry
  overdue : Bool
  bus : Option Issued
  held : Option BusTxn
  /-- the held transaction started while the head was overdue and another part access was on the bus (R172) -/
  owed : Bool
  waiting : List HostTxn
  refused : Nat
  lastRefused : Option (BitVec 24)
  /-- LOAD reads not yet added to the queue (R154, R168) -/
  keptLoads : List SettingWord
  deriving DecidableEq, Repr

/-! ### Settings snoop (chapter 10) -/

/-- The command result (R181). -/
structure CmdResult where
  tag : Byte
  code : Byte
  outcome : CmdOutcome
  count : BitVec 16
  deriving DecidableEq, Repr

/-- The settings snoop but for the notice writer (R175, R176, R178, R181). -/
structure Snoop where
  settings : Vector Word 35
  live : Vector Word 6
  /-- refused-setting offset, or none (R176) -/
  refusedOffset : Option Nat
  loaderIndex : BitVec 4
  partialEntry : List Int
  result : CmdResult
  restart : Bool
  deriving DecidableEq, Repr

/-! ### State control and the lines (chapter 8) -/

/-- State control (R150). -/
structure Control where
  op : OpState
  settingsLoaded : Bool
  /-- per-word loaded flags, in the order of SettingWord (R155) -/
  loaded : Vector Bool 35
  /-- deep-watch timer: IDLE, or its end (R157) -/
  deepEnd : Option Time
  nextWindow : Option Time
  /-- end of the listen window in progress (R157) -/
  windowEnd : Option Time
  wake : Bool
  /-- parked notice list, oldest first (R160) -/
  parked : List Notice
  parkedLost : Bool
  /-- the parked list has been written out since parkedLost was set (R160, R184) -/
  parkedWritten : Bool
  refIgn : Bool
  refTrl : Bool
  refHup : Bool
  deriving DecidableEq, Repr

/-- The levels of the input lines, and whether VDD meets its threshold (R151, R153, R163). -/
structure Pins where
  resetN : Bool
  supplyOk : Bool
  ign : Bool
  trl : Bool
  hup : Bool
  straps : BitVec 4
  deriving DecidableEq, Repr

/-- An access carried to the memory-side port (R163, R166, R167). -/
inductive PortAccess where
  | read (addr : Nat) (enables : BitVec 4) (words : Nat)
  | write (addr : Nat) (words : List HostWord)
  deriving DecidableEq, Repr

/-- What the two ports last showed: the words returned to the host, and the access carried to memory (R163). The
model's own record of the outputs. -/
structure Ports where
  hostData : List Word
  memory : Option PortAccess
  deriving DecidableEq, Repr

/-! ### The whole state -/

/-- The state of the part, with the static memory behind it and the queue of commands that wait. -/
structure State where
  now : Time
  intake : Intake
  positions : Vector PosRec 26
  candidates : List Candidate
  trigger : Trigger
  eval : Eval
  sweep : Sweep
  path : Path
  snoop : Snoop
  notices : NoticeWriter
  control : Control
  pins : Pins
  mem : List Host.Cell
  ports : Ports
  pending : List Instr
  deriving DecidableEq, Repr

/-- The part has no fault: the spec names no event that stops it, so no step raises one. -/
inductive Fault where
  deriving DecidableEq, Repr

/-- Why a command has no meaning. -/
inductive Refusal where
  /-- The command of that mnemonic has no meaning yet. Raised by an arm of exec only; safe, since no claim about
  the command can then be proved. No arm of this model answers it. -/
  | notModelled (mnemonic : String)
  deriving DecidableEq, Repr

/-! ### Reset values -/

/-- The same value for each lane. -/
def Lanes.all {α : Type} (x : α) : Lanes α := ⟨x, x, x, x⟩

/-- R26, R34, R35: a lane after reset. -/
def LaneRec.reset : LaneRec := { state := .off, good := 0, bad := 0, quietCount := 0, quiet := false }

/-- R117: an alert record after reset. -/
def AlertRec.reset : AlertRec :=
  { state := .clear, level := .warn, acked := false, pendingCount := 0, clearCount := 0, stamp := 0, value := 0 }

/-- R117: the records of a position after reset. -/
def Alerts.reset : Alerts :=
  { low := .reset, high := .reset, hot := .reset, leak := .reset, mismatch := .reset, silent := .reset,
    sensor := .reset }

/-- Field table of section 1.2 and R88: a position record after reset. -/
def PosRec.reset : PosRec :=
  { state := .vacant, id := none, epoch := 0, sample := none, lastTemp := none, homeLane := none, interval := none,
    drift := 0, deadline := none, missed := 0, reference := none, handedMotion := none, silent := false,
    leak := none, claim := none, recheck := false, alerts := .reset }

/-- R104: a limit set after reset. -/
def LimitSet.reset : LimitSet :=
  { target := 800, lowWarn := 80, lowAlarm := 160, highWarn := 120, hotWarn := 85, hotAlarm := 100, loaded := false }

/-- R26, R34, R37: the intake unit after reset. -/
def Intake.reset : Intake := { lanes := .all .reset, merged := 0, recent := [] }

/-- R60, R61, R66, R67, R69, with the fire log and the per-coil starts empty as at first power (R64). -/
def Trigger.reset : Trigger :=
  { coils := Vector.replicate 12 .idle, queue := [], records := [], log := [], lastStart := Vector.replicate 12 none,
    lastCode := 0, stale := 0 }

/-- R104, R123, R127, R128: the evaluation unit after reset. -/
def Eval.reset : Eval :=
  { limits := Vector.replicate 16 .reset, settleEnd := none, escalation := .idle, lamp := .off }

/-- R132: the sweep unit after reset. -/
def Sweep.reset : Sweep :=
  { timer := none, count := 0, skipped := 0, number := 0, publication := none, head := 63, written := 0, front := .a,
    published := false, hold := .released, deferredFlip := false, deferredCount := 0, trend := [], keptReads := [] }

/-- R166, R167, R174: the memory path after reset. -/
def Path.reset : Path :=
  { queue := [], overdue := false, bus := none, held := none, owed := false, waiting := [], refused := 0, lastRefused := none,
    keptLoads := [] }

/-- The defaults of the non-live words (11.2), in ascending offset: each copy holds its default in the word's own
fields. DESIGN CHOICE: its ignored bits are 0 until a write stores them. Log 58 -/
def settingDefaults : Vector Word 35 :=
  #v[0, 0, 0, 0, 0, 0, 0xF, 0xFF, 10, 400, 3, 2, 6, 120, 10, 0x005A0008, 0x07080078, 2, 4, 3, 101, 3, 2, 20, 5, 60,
     0x00C80014, 30, 30, 1, 10, 64, 12, 0, 60]

/-- R175 to R178, R181: the settings snoop after reset. The restart flag is set (R181). -/
def Snoop.reset : Snoop :=
  { settings := settingDefaults, live := Vector.replicate 6 0, refusedOffset := none, loaderIndex := 0,
    partialEntry := [], result := { tag := 0, code := 0, outcome := .none, count := 0 }, restart := true }

/-- R183, R185: the notice writer after reset. -/
def NoticeWriter.reset : NoticeWriter :=
  { write := 0, completed := 0, lost := false, inRing := [], attention := false }

/-- R150: state control after reset. DESIGN CHOICE: the references read low until the exit takes them. Log 5 -/
def Control.reset : Control :=
  { op := .reset, settingsLoaded := false, loaded := Vector.replicate 35 false, deepEnd := none, nextWindow := none,
    windowEnd := none, wake := false, parked := [], parkedLost := false, parkedWritten := false, refIgn := false,
    refTrl := false, refHup := false }

/-- DESIGN CHOICE: RESET_N low (the part stands in RESET), VDD good, the other lines low, straps 0. Log 4 -/
def Pins.reset : Pins :=
  { resetN := false, supplyOk := true, ign := false, trl := false, hup := false, straps := 0 }

/-- The part right after reset, at first power: it stands in RESET (R150), every block at its reset values, nothing
listed in memory, no command waiting. -/
def State.reset : State :=
  { now := 0, intake := .reset, positions := Vector.replicate 26 .reset, candidates := [], trigger := .reset,
    eval := .reset, sweep := .reset, path := .reset, snoop := .reset, notices := .reset, control := .reset,
    pins := .reset, mem := [], ports := { hostData := [], memory := none }, pending := [] }

end Sys2Proof.Machine
end

