-- ==== Sys2Proof/Machine/Operands.lean ====
section
/-! DEFINITION. The operand forms of the TM26: lanes, positions, coils and axles; the fields of the settings words
with their allowed values (11.2); the telegram formats with the CRC (R28 to R32, 11.1); the regions of the window
(R164); rounding as the Conventions define it. -/

namespace Sys2Proof.Machine

/-! ### Numbers (00_scope, Numbers) -/

/-- Round to the nearest integer, halves up, of num ÷ den for a positive den. -/
def roundDiv (num den : Nat) : Nat := (2 * num + den) / (2 * den)

/-- A count that saturates at `top`. -/
def satAdd (top n k : Nat) : Nat := min top (n + k)

/-- A bit field of a word as a number: `width` bits from bit `lo`. -/
def bits (w : Word) (lo width : Nat) : Nat := (w.toNat / 2 ^ lo) % 2 ^ width

/-- The low half-word of a word read as a signed number (R178). -/
def signedLow (w : Word) : Int := (BitVec.ofNat 16 w.toNat).toInt

/-- A number in a field of `width` bits from bit `lo`. -/
def field (v lo width : Nat) : Nat := 2 ^ lo * (v % 2 ^ width)

/-- A flag in bit `lo`. -/
def flag (b : Bool) (lo : Nat) : Nat := if b then 2 ^ lo else 0

/-- A word from the sum of its fields. -/
def packed (fields : List Nat) : Word := BitVec.ofNat 32 fields.sum

/-! ### Lanes and alert kinds -/

/-- The value of a lane. -/
def Lanes.get {α : Type} (v : Lanes α) : Lane → α
  | .a => v.a
  | .b => v.b
  | .c => v.c
  | .d => v.d

/-- The values with one lane's replaced. -/
def Lanes.set {α : Type} (v : Lanes α) (l : Lane) (x : α) : Lanes α :=
  match l with
  | .a => { v with a := x }
  | .b => { v with b := x }
  | .c => { v with c := x }
  | .d => { v with d := x }

/-- The values given lane by lane. -/
def Lanes.tabulate {α : Type} (f : Lane → α) : Lanes α := ⟨f .a, f .b, f .c, f .d⟩

/-- The lanes in the order of their letters. -/
def lanesInOrder : List Lane := [.a, .b, .c, .d]

/-- 0 to 3 for A to D, the value that notices and the lane-enable mask use (R26, R35). -/
def laneNum : Lane → Nat
  | .a => 0
  | .b => 1
  | .c => 2
  | .d => 3

/-- The record of a kind. -/
def Alerts.get (v : Alerts) : AlertKind → AlertRec
  | .low => v.low
  | .high => v.high
  | .hot => v.hot
  | .leak => v.leak
  | .mismatch => v.mismatch
  | .silent => v.silent
  | .sensor => v.sensor

/-- The records with one kind's replaced. -/
def Alerts.set (v : Alerts) (k : AlertKind) (r : AlertRec) : Alerts :=
  match k with
  | .low => { v with low := r }
  | .high => { v with high := r }
  | .hot => { v with hot := r }
  | .leak => { v with leak := r }
  | .mismatch => { v with mismatch := r }
  | .silent => { v with silent := r }
  | .sensor => { v with sensor := r }

/-- The kinds in the bit order of the ACK mask (R125). -/
def alertKinds : List AlertKind := [.low, .high, .hot, .leak, .mismatch, .silent, .sensor]

/-- The bit of a kind in the ACK mask (R125). -/
def AlertKind.num : AlertKind → Nat
  | .low => 0
  | .high => 1
  | .hot => 2
  | .leak => 3
  | .mismatch => 4
  | .silent => 5
  | .sensor => 6

/-! ### Settings words (11.2) -/

/-- The place of a non-live word in ascending offset; its offset is four times it. -/
def SettingWord.num : SettingWord → Nat
  | .axleLayout => 0
  | .assign0 => 1
  | .assign1 => 2
  | .assign2 => 3
  | .assign3 => 4
  | .laneMask => 5
  | .attentionMask => 6
  | .vehicle => 7
  | .fireSpeed => 8
  | .responseWindow => 9
  | .retryLimit => 10
  | .twinMargin => 11
  | .rollingThreshold => 12
  | .persistSpan => 13
  | .ageLimit => 14
  | .rollingRange => 15
  | .parkedRange => 16
  | .driftLimit => 17
  | .driftStep => 18
  | .silenceMultiple => 19
  | .patm => 20
  | .persistCount => 21
  | .clearCount => 22
  | .pressureHyst => 23
  | .tempHyst => 24
  | .mismatchLimit => 25
  | .leakLimits => 26
  | .tipSettle => 27
  | .ackLimit => 28
  | .escAction => 29
  | .sweepPeriod => 30
  | .historyDepth => 31
  | .trendSpan => 32
  | .viewLag => 33
  | .deepDelay => 34

theorem SettingWord.num_lt (w : SettingWord) : w.num < 35 := by cases w <;> decide

/-- The place of a non-live word as an index of the copies. -/
def SettingWord.index (w : SettingWord) : Fin 35 := ⟨w.num, w.num_lt⟩

/-- The window offset of a non-live word. -/
def SettingWord.offset (w : SettingWord) : Nat := 4 * w.num

/-- The non-live words in ascending offset. -/
def settingWords : List SettingWord :=
  [.axleLayout, .assign0, .assign1, .assign2, .assign3, .laneMask, .attentionMask, .vehicle, .fireSpeed,
    .responseWindow, .retryLimit, .twinMargin, .rollingThreshold, .persistSpan, .ageLimit, .rollingRange,
    .parkedRange, .driftLimit] ++
  [.driftStep, .silenceMultiple, .patm, .persistCount, .clearCount, .pressureHyst, .tempHyst, .mismatchLimit,
    .leakLimits, .tipSettle, .ackLimit, .escAction, .sweepPeriod, .historyDepth, .trendSpan, .viewLag, .deepDelay]

/-- The non-live word at a window offset, if there is one. -/
def settingWordAt (offset : Nat) : Option SettingWord := settingWords.find? (fun w => w.offset == offset)

/-- The place of a live word from offset 0100. -/
def LiveWord.num : LiveWord → Nat
  | .readIndex => 0
  | .pageHold => 1
  | .argument => 2
  | .command => 3
  | .loaderIndex => 4
  | .loaderData => 5

theorem LiveWord.num_lt (w : LiveWord) : w.num < 6 := by cases w <;> decide

/-- The place of a live word as an index of the copies. -/
def LiveWord.index (w : LiveWord) : Fin 6 := ⟨w.num, w.num_lt⟩

/-- The window offset of a live word. -/
def LiveWord.offset (w : LiveWord) : Nat := 0x100 + 4 * w.num

/-- The live words in ascending offset. -/
def liveWords : List LiveWord := [.readIndex, .pageHold, .argument, .command, .loaderIndex, .loaderData]

/-- The live word at a window offset, if there is one. -/
def liveWordAt (offset : Nat) : Option LiveWord := liveWords.find? (fun w => w.offset == offset)

/-- The part's copy of a non-live word (R175). -/
def State.copy (s : State) (w : SettingWord) : Word := s.snoop.settings.get w.index

/-- The part's copy of a live word (R177). -/
def State.liveCopy (s : State) (w : LiveWord) : Word := s.snoop.live.get w.index

/-- The value of a word that holds one value: bits 15–0 as an unsigned number (11.2). -/
def State.setting (s : State) (w : SettingWord) : Nat := bits (s.copy w) 0 16

/-- The second value of a word that holds two: bits 31–16 (11.2). -/
def State.settingHigh (s : State) (w : SettingWord) : Nat := bits (s.copy w) 16 16

/-- The host's read index as the part's copy has it (R184). -/
def State.readIndex (s : State) : BitVec 7 := BitVec.ofNat 7 (bits (s.liveCopy .readIndex) 0 16)

/-- Merging the bytes whose enables are on into a copy (R175). -/
def mergeBytes (old : Word) (w : HostWord) : Word :=
  let byte (i : Nat) : Nat := field (if w.enables.getLsbD i then bits w.data (8 * i) 8 else bits old (8 * i) 8) (8 * i) 8
  packed [byte 0, byte 1, byte 2, byte 3]

/-- A value between bounds, ends included (00_scope: ranges of settings are inclusive). -/
def inRange (v lo hi : Nat) : Bool := lo ≤ v && v ≤ hi

/-- R89: a range word is allowed when both bounds lie in the allowed values and the minimum is below the maximum. -/
def rangeWordOk (v : Word) (lo hi : Nat) : Bool :=
  inRange (bits v 0 16) lo hi && inRange (bits v 16 16) lo hi && bits v 0 16 < bits v 16 16

/-! ### The axle layout (R2, 11.2) -/

/-- The kind of an axle in a layout word. Code 3 is refused (11.2) and stands for no kind in force. -/
def axleKind (layout : Word) (a : Axle) : AxleKind :=
  match bits layout (4 * a.val) 2 with
  | 1 => .single
  | 2 => .twin
  | _ => .absent

/-- The liftable flag of an axle in a layout word: the bit above its kind. DEDUCED. Log 57 -/
def axleLiftable (layout : Word) (a : Axle) : Bool := layout.getLsbD (4 * a.val + 2)

/-- The trailer flag of an axle in a layout word: the bit above its liftable flag. DEDUCED. Log 57 -/
def axleTrailer (layout : Word) (a : Axle) : Bool := layout.getLsbD (4 * a.val + 3)

/-- The spare count of a layout word. -/
def spareCount (layout : Word) : Nat := bits layout 24 2

/-- The six axles, from the front. -/
def axles : List Axle := [0, 1, 2, 3, 4, 5]

/-- R2, section 1.3: a layout word is allowed when no axle has the undefined kind code and the spare count is at
most 2. -/
def layoutOk (layout : Word) : Bool :=
  axles.all (fun a => bits layout (4 * a.val) 2 != 3) && spareCount layout ≤ 2

/-- R176 with the allowed values of 11.2 and of the owners' chapters: a merged word passes every test of its owner.
`depth` is the history depth in force (R149). -/
def settingOk (w : SettingWord) (v : Word) (depth : Nat) : Bool :=
  let x := bits v 0 16
  match w with
  | .axleLayout => layoutOk v
  | .assign0 => true
  | .assign1 => true
  | .assign2 => true
  | .assign3 => true
  | .laneMask => true
  | .attentionMask => true
  | .vehicle => true
  | .fireSpeed => inRange x 0 30
  | .responseWindow => inRange x 100 1000
  | .retryLimit => inRange x 1 5
  | .twinMargin => inRange x 1 8
  | .rollingThreshold => inRange x 2 50
  | .persistSpan => inRange x 30 900
  | .ageLimit => inRange x 1 60
  | .rollingRange => rangeWordOk v 2 600
  | .parkedRange => rangeWordOk v 30 4000
  | .driftLimit => inRange x 1 8
  | .driftStep => inRange x 1 16
  | .silenceMultiple => inRange x 2 8
  | .patm => inRange x 80 110
  | .persistCount => inRange x 1 8
  | .clearCount => inRange x 1 8
  | .pressureHyst => inRange x 0 100
  | .tempHyst => inRange x 0 20
  | .mismatchLimit => inRange x 10 300
  | .leakLimits => inRange x 5 500 && x < bits v 16 16 && bits v 16 16 ≤ 2000
  | .tipSettle => inRange x 0 120
  | .ackLimit => inRange x 0 600
  | .escAction => inRange x 0 1
  | .sweepPeriod => inRange x 2 60
  | .historyDepth => inRange x 8 96
  | .trendSpan => inRange x 2 32
  | .viewLag => x < depth
  | .deepDelay => inRange x 10 240

/-! ### Positions and coils (R1, R2, R59) -/

/-- The 26 positions in index order. -/
def positionsInOrder : List Pos := List.finRange 26

/-- The 12 coils in coil order, 1L first. -/
def coilsInOrder : List Coil := List.finRange 12

/-- The axle of a position, or none for a spare. -/
def axleOf (p : Pos) : Option Axle := if h : p.val / 4 < 6 then some ⟨p.val / 4, h⟩ else none

/-- The slot number of an axle position: LO 0, LI 1, RI 2, RO 3. -/
def slotOf (p : Pos) : Nat := p.val % 4

/-- The axle of a coil. -/
def coilAxle (c : Coil) : Axle := ⟨c.val / 2, by omega⟩

/-- The outer slot of a coil's axle side: nLO or nRO (R59). -/
def outerPos (c : Coil) : Pos := ⟨c.val / 2 * 4 + (if c.val % 2 = 0 then 0 else 3), by split <;> omega⟩

/-- The inner slot of a coil's axle side: nLI or nRI (R59). -/
def innerPos (c : Coil) : Pos := ⟨c.val / 2 * 4 + (if c.val % 2 = 0 then 1 else 2), by split <;> omega⟩

/-- The coil on the other side of the same axle (R63). -/
def otherSide (c : Coil) : Coil := ⟨c.val / 2 * 2 + (1 - c.val % 2), by omega⟩

/-- R2: whether a position is in use under a layout word. -/
def inUse (layout : Word) (p : Pos) : Bool :=
  match axleOf p with
  | some a =>
    match axleKind layout a with
    | .absent => false
    | .single => slotOf p == 0 || slotOf p == 3
    | .twin => true
  | none => if p.val = 24 then 1 ≤ spareCount layout else 2 ≤ spareCount layout

/-- R2: a position is a trailer position when its axle's trailer flag is set; spares never are. -/
def trailerPos (layout : Word) (p : Pos) : Bool :=
  match axleOf p with
  | some a => axleTrailer layout a
  | none => false

/-- The coil on whose side of the axle a position lies, or none for a spare. -/
def sideCoil (p : Pos) : Option Coil :=
  if h : p.val < 24 then some ⟨p.val / 4 * 2 + p.val % 4 / 2, by omega⟩ else none

/-- R59: the in-use positions that a coil serves, the inner slot before the outer. -/
def servedBy (layout : Word) (c : Coil) : List Pos :=
  match axleKind layout (coilAxle c) with
  | .absent => []
  | .single => [outerPos c]
  | .twin => [innerPos c, outerPos c]

/-- R59: the coil that serves a position in use, or none. -/
def servingCoil (layout : Word) (p : Pos) : Option Coil :=
  if inUse layout p then sideCoil p else none

/-- R112: the other slot of the twin pair that a position belongs to, or none. -/
def twinPartner (layout : Word) (p : Pos) : Option Pos :=
  match sideCoil p with
  | some c =>
    if axleKind layout (coilAxle c) = .twin then
      (if p = outerPos c then some (innerPos c) else some (outerPos c))
    else none
  | none => none

/-- R112: the outer slot of the twin pair that a position belongs to, or none. -/
def pairOuter (layout : Word) (p : Pos) : Option Pos :=
  match sideCoil p with
  | some c => if axleKind layout (coilAxle c) = .twin then some (outerPos c) else none
  | none => none

/-- The layout in force. -/
def State.layout (s : State) : Word := s.copy .axleLayout

/-- R2: a position is lifted when its axle is liftable and the axle's bit in the lifted-axle mask is set; axle 1 is bit 16.
DEDUCED. Log 57 -/
def State.lifted (s : State) (p : Pos) : Bool :=
  match axleOf p with
  | some a => axleLiftable s.layout a && (s.copy .vehicle).getLsbD (16 + a.val)
  | none => false

/-- R63: the speed of the vehicle state word. -/
def State.speed (s : State) : Nat := bits (s.copy .vehicle) 0 8

/-- R123: the body-raised flag, bit 8 of the vehicle state word as taken. -/
def State.bodyRaised (s : State) : Bool := (s.copy .vehicle).getLsbD 8

/-- R25: the limit set index of a position, from the limit-set assignment words. -/
def State.limitIndex (s : State) (p : Pos) : Fin 16 :=
  let w : SettingWord := match p.val / 8 with
    | 0 => .assign0
    | 1 => .assign1
    | 2 => .assign2
    | _ => .assign3
  ⟨bits (s.copy w) (4 * (p.val % 8)) 4, Nat.mod_lt _ (by decide)⟩

/-- R59: a coil exists while its axle is not ABSENT. -/
def coilExists (layout : Word) (c : Coil) : Bool := axleKind layout (coilAxle c) != .absent

/-- R59: a coil is available when it exists and, on a trailer axle, trailer-present is high. -/
def State.available (s : State) (c : Coil) : Bool :=
  coilExists s.layout c && (!(axleTrailer s.layout (coilAxle c)) || s.control.refTrl)

/-- The record of a position. -/
def State.posAt (s : State) (p : Pos) : PosRec := s.positions.get p

/-- The position that holds an ID, if one does (R6: at most one). -/
def State.holder (s : State) (id : SensorId) : Option Pos :=
  positionsInOrder.find? (fun p => decide ((s.posAt p).id = some id))

/-- R5: the four states in which a record holds an ID. -/
def BindState.holdsId : BindState → Bool
  | .vacant => false
  | .unlearned => false
  | .locating => false
  | .bound => true
  | .suspect => true
  | .conflict => true
  | .detached => true

/-- 00_scope: the values 00000000 and FFFFFFFF are not valid sensor IDs. -/
def validId (id : SensorId) : Bool := id != 0 && id != 0xFFFFFFFF

/-! ### Telegrams (R28 to R32, 11.1) -/

/-- R29: one bit into the CRC register. -/
def crcBit (reg : Byte) (bit : Bool) : Byte :=
  if (reg.getLsbD 7) != bit then (reg <<< 1) ^^^ 0x2F else reg <<< 1

/-- R29: one byte, most significant bit first. -/
def crcByte (reg b : Byte) : Byte :=
  [7, 6, 5, 4, 3, 2, 1, 0].foldl (fun r i => crcBit r (b.getLsbD i)) reg

/-- R29: the CRC over the bytes before the last, from FF. -/
def crc (bytes : List Byte) : Byte := bytes.foldl crcByte 0xFF

/-- R33, 11.1: the telegram kind of the code in bits 6–5 of the first byte. -/
def kindOfCode (b0 : Byte) : TelegramKind :=
  match b0.toNat / 32 % 4 with
  | 0 => .periodic
  | 1 => .alert
  | 2 => .triggered
  | _ => .parked

/-- The sensor ID of bytes 1 to 4, most significant byte first (11.1). -/
def idOfBytes (b1 b2 b3 b4 : Byte) : SensorId := b1 ++ b2 ++ b3 ++ b4

/-- R28 to R32: the payload of a good frame, or none for a malformed one: the format flag, the length, the CRC and
the field checks. -/
def decodeFrame (frame : List Byte) : Option Payload :=
  match frame with
  | [b0, b1, b2, b3, b4, b5, b6, b7, b8, b9] =>
    let id := idOfBytes b1 b2 b3 b4
    if b0.getLsbD 7 && b9 == crc [b0, b1, b2, b3, b4, b5, b6, b7, b8] && b8.extractLsb' 4 4 == 0 && validId id then
      some { format := .long, kind := kindOfCode b0, seq := b0.extractLsb' 0 4, motion := b0.getLsbD 4, id := id,
             code := (b5 ++ b6).extractLsb' 6 10, battery := b6.getLsbD 5, fault := b6.getLsbD 4,
             lf := some (b6.extractLsb' 0 4), tempCode := some b7, echo := some (b8.extractLsb' 0 4) }
    else none
  | [b0, b1, b2, b3, b4, b5, b6, b7] =>
    let id := idOfBytes b1 b2 b3 b4
    if !(b0.getLsbD 7) && b7 == crc [b0, b1, b2, b3, b4, b5, b6] && b6.extractLsb' 0 4 == 0 &&
        kindOfCode b0 != .triggered && validId id then
      some { format := .short, kind := kindOfCode b0, seq := b0.extractLsb' 0 4, motion := b0.getLsbD 4, id := id,
             code := (b5 ++ b6).extractLsb' 6 10, battery := b6.getLsbD 5, fault := b6.getLsbD 4,
             lf := none, tempCode := none, echo := none }
    else none
  | _ => none

/-- R23, R31: the temperature of a payload: code − 50 °C, invalid for code 255, absent in a SHORT telegram. -/
def Payload.temp (t : Payload) : Temp :=
  match t.tempCode with
  | none => .absent
  | some c => if c = 255 then .invalid else .celsius ((c.toNat : Int) - 50)

/-- The published temperature code: temperature + 50, or 255 when it is absent or invalid (R137, R186). -/
def Temp.code : Temp → Nat
  | .absent => 255
  | .invalid => 255
  | .celsius t => (t + 50).toNat

/-- R23: the absolute pressure of a raw pressure code: invalid for 0, over range for 1023, else code × 2 kPa. -/
def absPressure (code : BitVec 10) : AbsPressure :=
  if code = 0 then .invalid else if code = 1023 then .overRange else .kPa (2 * code.toNat)

/-! ### Regions and translation (R143, R148, R164, R165) -/

/-- The regions of the part window (R164). -/
inductive Region where
  | settings | scratch | aperture | pageA | pageB | noticeRing | history | trendView
  deriving DecidableEq, Repr

/-- The region of a window offset (R164). -/
def regionOf (offset : Nat) : Region :=
  if offset < 0x400 then .settings
  else if offset < 0x800 then .scratch
  else if offset < 0x1000 then .aperture
  else if offset < 0x1800 then .pageA
  else if offset < 0x2000 then .pageB
  else if offset < 0x2800 then .noticeRing
  else if offset < 0x4000 then .scratch
  else if offset < 0xA000 then .history
  else .trendView

/-- R164, R166: what a host write into a region becomes. -/
def Region.writeClass : Region → WriteClass
  | .settings => .settings
  | .scratch => .passed
  | .aperture => .suppressed
  | .pageA => .suppressed
  | .pageB => .suppressed
  | .noticeRing => .suppressed
  | .history => .suppressed
  | .trendView => .suppressed

/-- The base offset of a status page (R164). -/
def Page.base : Page → Nat
  | .a => 0x1000
  | .b => 0x1800

/-- The other status page. -/
def Page.other : Page → Page
  | .a => .b
  | .b => .a

/-- R163: the window base. -/
def State.windowBase (s : State) : Nat := 0x100000 * s.pins.straps.toNat

/-- R163: the window offset of an address, or none outside the window. -/
def State.windowOffset (s : State) (addr : Nat) : Option Nat :=
  if s.windowBase ≤ addr ∧ addr < s.windowBase + 0x10000 then some (addr - s.windowBase) else none

/-- R143: the window offset of a column slot. -/
def columnBase (column : Nat) : Nat := 0x4000 + 0x100 * column

/-- R143, R145: the window offset of a position's cell in a column. -/
def cellOffset (column : Nat) (p : Pos) : Nat := columnBase column + p.val * 8

/-- R143: the column of an age, counted back from the head. -/
def columnOfAge (head depth age : Nat) : Nat := (head + depth - age % depth) % depth

/-- R148: where a read of the trend view at a window offset goes: none for zeros. -/
def trendTarget (head written depth lag offset : Nat) : Option Nat :=
  let v := (offset - 0xA000) / 0x100
  let b := offset % 0x100
  if depth ≤ v then none
  else
    let age := lag + (depth - 1 - v)
    if written ≤ age then none else some (columnBase (columnOfAge head depth age) + b)

/-- R165: where a read of the status aperture at a window offset goes: none for zeros. -/
def apertureTarget (published : Bool) (front : Page) (offset : Nat) : Option Nat :=
  if published then some (front.base + (offset - 0x800)) else none

/-- R164, R165: the final window offset of a host read at a window offset, or none for zeros. -/
def State.readTarget (s : State) (offset : Nat) : Option Nat :=
  match regionOf offset with
  | .aperture => apertureTarget s.sweep.published s.sweep.front offset
  | .trendView =>
    trendTarget s.sweep.head s.sweep.written (s.setting .historyDepth) (s.setting .viewLag) offset
  | .settings => some offset
  | .scratch => some offset
  | .pageA => some offset
  | .pageB => some offset
  | .noticeRing => some offset
  | .history => some offset

/-- The words of a host write. -/
def hostWords : HostData → List HostWord
  | .single w => [w]
  | .burst w0 w1 w2 w3 => [w0, w1, w2, w3]

/-- R163: the address at which a host write starts: low bits that an aligned transfer does not use are 0. -/
def writeStart (d : HostData) (addr : Nat) : Nat :=
  match d with
  | .single _ => addr / 4 * 4
  | .burst _ _ _ _ => addr / 16 * 16

/-- R163, for a read. -/
def readStart (r : ReadShape) (addr : Nat) : Nat :=
  match r with
  | .single => addr / 4 * 4
  | .burst => addr / 16 * 16

/-- The number of words of a host read. -/
def readCount : ReadShape → Nat
  | .single => 1
  | .burst => 4

/-! ### The command word (11.2) -/

/-- The command word of a command. -/
def commandWord (code : Nat) (tag position upper : Byte) : Word :=
  packed [field code 0 8, field tag.toNat 8 8, field position.toNat 16 8, field upper.toNat 24 8]

/-- The position that a position byte names, if it lies in 0 to 25. -/
def posOfByte (b : Nat) : Option Pos := if h : b < 26 then some ⟨b, h⟩ else none

end Sys2Proof.Machine
end

