-- ==== Sys2Proof/Machine/Flags.lean ====
section
/-! DEFINITION. The status computations of the evaluation unit as functions of numbers (R102, R107 to R120), the
lamp and the escalation timer as functions of the alert records (R127, R128), and the output lines of the part as
functions of the state (00_scope, Signal summary). -/

namespace Sys2Proof.Machine

/-! ### Cold pressure (R102) -/

/-- R102: the compensated, rounded and clamped cold pressure for a code of 1 to 1022 at a compensation temperature of
t °C with atmospheric setting patm: 2 kPa for each unit of the code, times 293 / (t + 273). -/
def compensated (code : BitVec 10) (t : Int) (patm : Nat) : Nat :=
  min 2047 (roundDiv (586 * code.toNat) (t + 273).toNat - patm)

/-- R102: the cold pressure of a sample: none (invalid) for code 0, 2047 for code 1023. -/
def coldPressure (code : BitVec 10) (t : Int) (patm : Nat) : Option Nat :=
  if code = 0 then none else if code = 1023 then some 2047 else some (compensated code t patm)

/-! ### Evaluation results (R107 to R115) -/

/-- The result of an evaluation (R107). -/
inductive EvalResult where
  | alarm | warn | clear | band
  deriving DecidableEq, Repr

/-- R108: LOW. -/
def lowResult (l : LimitSet) (h c : Int) : EvalResult :=
  if c < l.target - l.lowAlarm then .alarm
  else if c < l.target - l.lowWarn then .warn
  else if c < l.target - l.lowWarn + h then .band
  else .clear

/-- R109: HIGH. -/
def highResult (l : LimitSet) (h c : Int) (overRange : Bool) : EvalResult :=
  if overRange then .warn
  else if l.target + l.highWarn < c then .warn
  else if c ≤ max 0 (l.target + l.highWarn - h) then .clear
  else .band

/-- R110: HOT. -/
def hotResult (l : LimitSet) (h t : Int) : EvalResult :=
  if l.hotAlarm < t then .alarm
  else if l.hotWarn < t then .warn
  else if l.hotWarn - h < t then .band
  else .clear

/-- R111: the sum of codes, 1 fault, 2 battery-low, 4 failed measurement. -/
def sensorValue (x : Sample) : Nat :=
  (if x.fault then 1 else 0) + (if x.battery then 2 else 0) + (if x.code = 0 then 4 else 0)

/-- R111: SENSOR. -/
def sensorResult (x : Sample) : EvalResult := if sensorValue x = 0 then .clear else .warn

/-- R113: MISMATCH. -/
def mismatchResult (limit h d : Int) : EvalResult :=
  if limit < d then .warn else if d ≤ max 0 (limit - h) then .clear else .band

/-- R114: LEAK from a rate. -/
def leakResult (slow rapid q : Int) : EvalResult :=
  if rapid ≤ q then .alarm else if slow ≤ q then .warn else .clear

/-! ### The alert record (R117 to R120) -/

/-- What a move of a record calls for: a notice, if any (R121). -/
inductive AlertEvent where
  | none | raised | escalated | cleared
  deriving DecidableEq, Repr

/-- The level of a raising result. -/
def EvalResult.level : EvalResult → Level
  | .alarm => .alarm
  | .warn => .warn
  | .clear => .warn
  | .band => .warn

/-- ALARM and WARN are raising results (R107). -/
def EvalResult.raising : EvalResult → Bool
  | .alarm => true
  | .warn => true
  | .clear => false
  | .band => false

/-- R117: a CLEAR record: level WARN, flag clear, counts 0; the stamp and the value stay. -/
def AlertRec.cleared (r : AlertRec) : AlertRec :=
  { r with state := .clear, level := .warn, acked := false, pendingCount := 0, clearCount := 0 }

/-- R118, R126: a record that goes ACTIVE at a level, its flag clear. -/
def AlertRec.raisedAt (r : AlertRec) (l : Level) : AlertRec :=
  { r with state := .active, level := l, acked := false, pendingCount := 0, clearCount := 0 }

/-- R119: the level rises to ALARM and the flag is cleared; the record is ACTIVE. -/
def AlertRec.escalatedRec (r : AlertRec) : AlertRec :=
  { r with state := .active, level := .alarm, acked := false, clearCount := 0 }

/-- R118 to R120: the move of a record on a result, with persistence count p and clear count c. -/
def AlertRec.move (r : AlertRec) (res : EvalResult) (p c : Nat) : AlertRec × AlertEvent :=
  match r.state with
  | .clear =>
    if res.raising then
      (if p ≤ 1 then (r.raisedAt res.level, .raised) else ({ r with state := .pending, pendingCount := 1 }, .none))
    else (r, .none)
  | .pending =>
    if res.raising then
      (if p ≤ r.pendingCount + 1 then (r.raisedAt res.level, .raised)
       else ({ r with pendingCount := r.pendingCount + 1 }, .none))
    else (r.cleared, .none)
  | .active =>
    match res with
    | .alarm => if r.level = .warn then (r.escalatedRec, .escalated) else (r, .none)
    | .warn => (r, .none)
    | .band => (r, .none)
    | .clear => if c ≤ 1 then (r.cleared, .cleared) else ({ r with state := .clearing, clearCount := 1 }, .none)
  | .clearing =>
    match res with
    | .alarm =>
      if r.level = .warn then (r.escalatedRec, .escalated) else ({ r with state := .active, clearCount := 0 }, .none)
    | .warn => ({ r with state := .active, clearCount := 0 }, .none)
    | .band => ({ r with state := .active, clearCount := 0 }, .none)
    | .clear =>
      if c ≤ r.clearCount + 1 then (r.cleared, .cleared) else ({ r with clearCount := r.clearCount + 1 }, .none)

/-- R115: the move of the LEAK record on an ALERT telegram. -/
def AlertRec.moveAlertTelegram (r : AlertRec) : AlertRec × AlertEvent :=
  match r.state with
  | .clear => (r.raisedAt .alarm, .raised)
  | .pending => (r.raisedAt .alarm, .raised)
  | .active => if r.level = .warn then (r.escalatedRec, .escalated) else (r, .none)
  | .clearing =>
    if r.level = .warn then (r.escalatedRec, .escalated) else ({ r with state := .active, clearCount := 0 }, .none)

/-- A record that lights the lamp: ACTIVE or CLEARING (R127). -/
def AlertRec.standing (r : AlertRec) : Bool := r.state = .active || r.state = .clearing

/-- An unacknowledged ALARM (R128). -/
def AlertRec.unackedAlarm (r : AlertRec) : Bool := r.standing && r.level = .alarm && !r.acked

/-- Some record of a position meets a test. -/
def Alerts.anyRec (v : Alerts) (f : AlertRec → Bool) : Bool := alertKinds.any (fun k => f (v.get k))

/-- Some of the 182 alert records of the part meets a test (R127). -/
def anyAlert (ps : Vector PosRec 26) (f : AlertRec → Bool) : Bool :=
  ps.toList.any (fun r => r.alerts.anyRec f)

/-- R127: the lamp after a change of a record: each entry to FLASH starts with a driven half-period. -/
def Lamp.refresh (l : Lamp) (standing unacked : Bool) (now : Time) : Lamp :=
  if unacked then
    (match l with
     | .flash d e => .flash d e
     | .on => .flash true (now + Config.halfPeriod)
     | .off => .flash true (now + Config.halfPeriod))
  else if standing then .on else .off

/-- R128, R130: the escalation timer after a change of a record or of its settings. -/
def Escalation.refresh (e : Escalation) (armed unacked : Bool) (limitMs now : Nat) : Escalation :=
  if armed && unacked then
    (match e with
     | .idle => .running (now + limitMs)
     | .running x => .running x
     | .expired => .expired)
  else .idle

/-- R128: the timer is armed when the acknowledge limit is above 0 and the escalation action is BUZZER. -/
def State.escalationArmed (s : State) : Bool := 0 < s.setting .ackLimit && s.setting .escAction = 1

/-- R123: the tipping freeze is in force. -/
def State.frozen (s : State) : Bool := s.bodyRaised || s.eval.settleEnd.isSome

/-! ### Lanes (R26) -/

/-- R26: the lane is masked by the lane-enable mask; lane A is bit 0. DEDUCED. Log 57 -/
def State.masked (s : State) (l : Lane) : Bool := (s.copy .laneMask).getLsbD (laneNum l)

/-- R26: the enable that the table gives a lane. -/
def State.enableHigh (s : State) (l : Lane) : Bool :=
  !(s.masked l) &&
  (match s.control.op with
   | .reset => false
   | .loading => true
   | .run => true
   | .watch => s.control.windowEnd.isSome
   | .deepWatch => s.control.windowEnd.isSome)

/-- R26: a lane after its enable is decided: it falls OFF, it enters SETTLING, or it stays. -/
def LaneRec.follow (r : LaneRec) (high : Bool) (now : Time) : LaneRec :=
  { r with state :=
      if high then
        (match r.state with
         | .off => .settling (now + Config.laneSettling)
         | .settling e => .settling e
         | .on t => .on t)
      else .off }

/-! ### Output lines -/

/-- RXEN_A to RXEN_D (R26). -/
def State.rxen (s : State) (l : Lane) : Bool :=
  match (s.intake.lanes.get l).state with
  | .off => false
  | .settling _ => true
  | .on _ => true

/-- R60: whether the carrier is on `ms` ms after the start of a burst with a code: 2 ms of preamble, then four bit
slots of 2 ms, most significant bit first. -/
def burstCarrier (code : BitVec 4) (ms : Nat) : Bool :=
  if ms < 2 then true else if ms < 10 then code.getLsbD (3 - (ms - 2) / 2) else false

/-- COIL_1L to COIL_6R: the driver output is active for the burst (R60). -/
def State.coilActive (s : State) (c : Coil) : Bool :=
  match s.trigger.coils.get c with
  | .idle => false
  | .firing _ _ => true
  | .recovering _ => false

/-- The carrier on a coil's driver output now (R60). -/
def State.coilCarrier (s : State) (c : Coil) : Bool :=
  match s.trigger.coils.get c with
  | .idle => false
  | .firing t code => burstCarrier code (s.now - t)
  | .recovering _ => false

/-- LAMP (R127). -/
def State.lampDriven (s : State) : Bool :=
  match s.eval.lamp with
  | .off => false
  | .on => true
  | .flash d _ => d

/-- BUZ, and the escalated flag with it: driven while the escalation timer is EXPIRED (R129). -/
def State.buzzer (s : State) : Bool := s.eval.escalation = .expired

/-- ATTN_N asserted: the attention state in LOADING and RUN (R185), the wake request in WATCH and DEEP WATCH
(R159), released in RESET. -/
def State.attnAsserted (s : State) : Bool :=
  match s.control.op with
  | .reset => false
  | .loading => s.notices.attention
  | .run => s.notices.attention
  | .watch => s.control.wake
  | .deepWatch => s.control.wake

/-- HWAIT_N asserted: a host transaction is held (R172). -/
def State.hwaitAsserted (s : State) : Bool := s.path.held.isSome

end Sys2Proof.Machine
end

