-- ==== Sys2Proof/Machine/Ops.lean ====
section
/-! DEFINITION. The named operations that every block uses: the passing of time, the update of a position record, the
static memory (bytes, words, canonical form), the outbound queue's writes and reads (R167 to R171), and the raising of
a notice with its place in the ring or on the parked list (R160, R182, R183). -/

namespace Sys2Proof.Machine

/-! ### Time and position records -/

/-- `dt` ms pass on the timebase. -/
def State.elapse (s : State) (dt : Nat) : State := { s with now := s.now + dt }

/-- One position record changed. -/
def State.modPos (s : State) (p : Pos) (f : PosRec → PosRec) : State :=
  { s with positions := s.positions.set p.val (f (s.posAt p)) p.isLt }

/-- The records given position by position. Irreducible, so that no proof unfolds the table: its one law is
posTable_get. -/
@[irreducible] def posTable (f : Pos → PosRec) : Vector PosRec 26 := Vector.ofFn f

/-- Every position record changed. -/
def State.mapPos (s : State) (f : Pos → PosRec → PosRec) : State :=
  { s with positions := posTable (fun p => f p (s.posAt p)) }

/-! ### The static memory -/

/-- What a byte of memory that nothing has written reads as. DESIGN CHOICE: 00. Log 3 -/
def unlistedByte : Byte := 0

/-- The byte at an address. -/
def memRead : List Host.Cell → Nat → Byte
  | [], _ => unlistedByte
  | (k, v) :: m, a => if k = a then v else memRead m a

/-- A byte written at an address, in canonical form: addresses strictly rising, no entry equal to what an unlisted
address reads as. -/
def memWrite : List Host.Cell → Nat → Byte → List Host.Cell
  | [], a, v => if v = unlistedByte then [] else [(a, v)]
  | (k, w) :: m, a, v =>
    if a < k then (if v = unlistedByte then (k, w) :: m else (a, v) :: (k, w) :: m)
    else if a = k then (if v = unlistedByte then m else (a, v) :: m)
    else (k, w) :: memWrite m a v

/-- The canonical form of memory. -/
def Memory.wf : List Host.Cell → Bool
  | [] => true
  | (k, v) :: m => v != unlistedByte && m.all (fun c => k < c.1) && Memory.wf m

/-- The word at an address: the byte at the lowest address holds bits 7 to 0 (00_scope). -/
def readWord (m : List Host.Cell) (a : Nat) : Word :=
  memRead m (a + 3) ++ memRead m (a + 2) ++ memRead m (a + 1) ++ memRead m a

/-- A word written at an address with the byte enables that are on. -/
def writeWord (m : List Host.Cell) (a : Nat) (w : HostWord) : List Host.Cell :=
  [0, 1, 2, 3].foldl
    (fun m i => if w.enables.getLsbD i then memWrite m (a + i) (w.data.extractLsb' (8 * i) 8) else m) m

/-- Words written at rising addresses from an address. -/
def writeWords (m : List Host.Cell) (a : Nat) : List HostWord → List Host.Cell
  | [] => m
  | w :: ws => writeWords (writeWord m a w) (a + 4) ws

/-! ### The outbound queue (R167 to R170) -/

/-- The pending WRITE data for a window offset, if the queue holds a WRITE for it (R169 to R171). -/
def pendingWrite : List QEntry → Nat → Option Word
  | [], _ => none
  | e :: q, offset =>
    match e.access with
    | .write d => if e.offset = offset then some d else pendingWrite q offset
    | .read => pendingWrite q offset

/-- The origin of the pending WRITE for a window offset (R169). -/
def pendingOrigin : List QEntry → Nat → Option Origin
  | [], _ => none
  | e :: q, offset =>
    match e.access with
    | .write _ => if e.offset = offset then some e.origin else pendingOrigin q offset
    | .read => pendingOrigin q offset

/-- R169: the pending WRITE for an offset takes new data and origin and keeps its place. -/
def replaceWrite : List QEntry → Nat → Word → Origin → List QEntry
  | [], _, _, _ => []
  | e :: q, offset, d, o =>
    match e.access with
    | .write _ =>
      if e.offset = offset then { e with access := .write d, origin := o } :: q else e :: replaceWrite q offset d o
    | .read => e :: replaceWrite q offset d o

/-- R167, R169: a WRITE that is admitted: it coalesces, or it joins the tail. -/
def queueWrite (q : List QEntry) (offset : Nat) (d : Word) (o : Origin) : List QEntry :=
  if (pendingWrite q offset).isSome then replaceWrite q offset d o
  else q ++ [{ access := .write d, offset := offset, origin := o }]

/-- R168: entries are admitted only while HUP is high and the part is not in RESET. -/
def State.admits (s : State) : Bool := s.control.refHup && s.control.op != .reset

/-- The free entries of the queue (R167). -/
def State.freePlaces (s : State) : Nat := Config.queuePlaces - s.path.queue.length

/-- R168: a PUBLISH, TREND or LOAD entry that needs a new place is admitted only while more than 8 are free. -/
def State.roomForProducer (s : State) : Bool := s.admits && Config.noticeReserve < s.freePlaces

/-! ### The notice writer (R182 to R185) -/

/-- R182: the category of a kind, in the order of the attention mask's bits. -/
def NoticeKind.category : NoticeKind → Nat
  | .alertRaised => 0
  | .alertEscalated => 0
  | .alertCleared => 0
  | .alertWithdrawn => 0
  | .bound => 1
  | .unbound => 1
  | .replaced => 1
  | .moved => 1
  | .swapped => 1
  | .conflict => 1
  | .locateFailed => 1
  | .recheckInconclusive => 1
  | .trailerDetached => 1
  | .trailerAttached => 1
  | .candidatePersistent => 1
  | .laneQuiet => 2
  | .laneRestored => 2
  | .holdOverridden => 2
  | .settingRefused => 3
  | .limitRefused => 3

/-- 11.4: the code of a kind, 1 to 20. -/
def NoticeKind.code : NoticeKind → Nat
  | .alertRaised => 1
  | .alertEscalated => 2
  | .alertCleared => 3
  | .alertWithdrawn => 4
  | .bound => 5
  | .unbound => 6
  | .replaced => 7
  | .moved => 8
  | .swapped => 9
  | .conflict => 10
  | .locateFailed => 11
  | .recheckInconclusive => 12
  | .trailerDetached => 13
  | .trailerAttached => 14
  | .candidatePersistent => 15
  | .laneQuiet => 16
  | .laneRestored => 17
  | .holdOverridden => 18
  | .settingRefused => 19
  | .limitRefused => 20

/-- The position byte: the index, or FF (R182). -/
def positionByte : Option Pos → Nat
  | some p => p.val
  | none => 0xFF

/-- 11.4: byte 3 of a notice record: alert kind + 1 in bits 2–0, level in bit 7; 0 for a notice that is no alert's. DEDUCED: the
level bit is 1 for ALARM. Log 60 -/
def alertByte : Option (AlertKind × Level) → Nat
  | some (k, l) => field (k.num + 1) 0 3 + flag (l == .alarm) 7
  | none => 0

/-- 11.4: the four words of a notice record. -/
def Notice.words (n : Notice) : List Word :=
  [packed [field n.kind.code 0 8, field n.kind.category 8 8, field (positionByte n.position) 16 8,
     field (alertByte n.alert) 24 8],
   n.id, n.value, packed [field n.stamp.toNat 0 16, field n.tag.toNat 16 8]]

/-- R183: the window offset of a ring slot. -/
def slotOffset (i : BitVec 7) : Nat := 0x2000 + i.toNat * 16

/-- R183: the writes of a notice at a slot. -/
def noticeWrites (n : Notice) (i : BitVec 7) : List KeptWrite :=
  n.words.zipIdx.map (fun x => { offset := slotOffset i + 4 * x.2, data := x.1 })

/-- R183, R185: the report that a NOTICE write at an offset has been taken: when it is the last of the slot that the
completed index names, the index advances, and the attention state is asserted if the mask has the category's bit: bit 0 is
ALERT, bit 3 SETTING. DEDUCED. Log 57 -/
def NoticeWriter.taken (nw : NoticeWriter) (mask : Word) (offset : Nat) : NoticeWriter :=
  if offset = slotOffset nw.completed + 12 then
    match nw.inRing with
    | [] => nw
    | n :: rest =>
      { nw with completed := nw.completed + 1, inRing := rest,
                attention := nw.attention || mask.getLsbD n.kind.category }
  else nw

/-- R167, R169: a WRITE that the queue admits. A NOTICE write that it replaces counts as completed. -/
def State.addWrite (s : State) (offset : Nat) (d : Word) (o : Origin) : State :=
  { s with
    path := { s.path with queue := queueWrite s.path.queue offset d o }
    notices := if pendingOrigin s.path.queue offset = some .notice then s.notices.taken (s.copy .attentionMask) offset
               else s.notices }

/-- R168: the new entries that the writes of a notice need: a word that coalesces needs none. -/
def newEntries (q : List QEntry) (ws : List KeptWrite) : Nat :=
  (ws.filter (fun w => (pendingWrite q w.offset).isNone)).length

/-- R183: a notice in RUN: lost when the ring is full or the queue cannot admit its four writes, else placed at the slot
of the write index. -/
def State.placeNotice (s : State) (n : Notice) : State :=
  let ws := noticeWrites n s.notices.write
  if s.notices.write + 1 = s.readIndex ∨ s.admits = false ∨ s.freePlaces < newEntries s.path.queue ws then
    { s with notices := { s.notices with lost := true } }
  else
    let t := ws.foldl (fun t w => t.addWrite w.offset w.data .notice) s
    { t with notices := { t.notices with write := t.notices.write + 1, inRing := t.notices.inRing ++ [n] } }

/-- R160: a notice on the parked list: when it holds 16 its head is dropped and the parked-lost flag is set. -/
def Control.park (c : Control) (n : Notice) : Control :=
  if c.parked.length < Config.parkedPlaces then { c with parked := c.parked ++ [n] }
  else { c with parked := c.parked.tail ++ [n], parkedLost := true, parkedWritten := false }

/-- R160, R183: a raised notice goes to the ring in RUN and to the parked list in LOADING, WATCH and DEEP WATCH. No
notice is raised in RESET. -/
def State.raise (s : State) (n : Notice) : State :=
  match s.control.op with
  | .reset => s
  | .run => s.placeNotice n
  | .loading => { s with control := s.control.park n }
  | .watch => { s with control := s.control.park n }
  | .deepWatch => { s with control := s.control.park n }

/-- A notice that is no alert's, filled when it is raised (R182). -/
def State.notify (s : State) (kind : NoticeKind) (position : Option Pos) (tag : Byte) (id : SensorId) (value : Word) :
    State :=
  s.raise { kind := kind, position := position, alert := none, tag := tag, id := id, value := value,
            stamp := s.sweep.count }

end Sys2Proof.Machine
end

