-- ==== Sys2Proof/Machine/Alerts.lean ====
section
/-! DEFINITION. The evaluation unit's alert records: the one operation that changes a record and brings the outputs
up to date (R122), evaluations (R107 to R115), the SILENT record (R116), withdrawals (R9) and acknowledgement
(R125). -/

namespace Sys2Proof.Machine

/-- R122: after a change of a record, in this order: the lamp (R127), the escalation timer with the buzzer (R128), and,
when an alarm was raised, the report to state control, which asserts the wake request in WATCH and DEEP WATCH
(R159). -/
def State.refreshOutputs (s : State) (alarm : Bool) : State :=
  { s with
    eval := { s.eval with
      lamp := s.eval.lamp.refresh (anyAlert s.positions AlertRec.standing) (anyAlert s.positions AlertRec.unackedAlarm)
        s.now
      escalation := s.eval.escalation.refresh s.escalationArmed (anyAlert s.positions AlertRec.unackedAlarm)
        (1000 * s.setting .ackLimit) s.now }
    control := { s.control with
      wake := s.control.wake || (alarm && (s.control.op == .watch || s.control.op == .deepWatch)) } }

/-- The record of a kind at a position. -/
def State.alertAt (s : State) (p : Pos) (k : AlertKind) : AlertRec := (s.posAt p).alerts.get k

/-- The one change of an alert record, with the outputs brought up to date. -/
def State.setAlert (s : State) (p : Pos) (k : AlertKind) (r : AlertRec) (alarm : Bool) : State :=
  (s.modPos p (fun x => { x with alerts := x.alerts.set k r })).refreshOutputs alarm

/-- R121: a notice of category ALERT. It carries tag 0 and the position's sensor ID. -/
def State.alertNotice (s : State) (kind : NoticeKind) (p : Pos) (k : AlertKind) (l : Level) (value : Int) : State :=
  s.raise { kind := kind, position := some p, alert := some (k, l), tag := 0, id := (s.posAt p).id.getD 0,
            value := BitVec.ofInt 32 value, stamp := s.sweep.count }

/-- R118 to R122: a move of a record with its stamp, value and notice. DEDUCED: a return from CLEARING is no raised
alarm. Log 18 -/
def State.applyMove (s : State) (p : Pos) (k : AlertKind) (m : AlertRec × AlertEvent) (value : Int) : State :=
  match m.2 with
  | .none => s.setAlert p k m.1 false
  | .raised =>
    (s.setAlert p k { m.1 with stamp := s.sweep.count, value := value } (m.1.level == .alarm)).alertNotice
      .alertRaised p k m.1.level value
  | .escalated =>
    (s.setAlert p k { m.1 with stamp := s.sweep.count, value := value } true).alertNotice
      .alertEscalated p k .alarm value
  | .cleared =>
    (s.setAlert p k m.1 false).alertNotice .alertCleared p k (s.alertAt p k).level (s.alertAt p k).value

/-- R107: an evaluation of one kind for one position with the persistence and clear counts in force (R106). -/
def State.evaluate (s : State) (p : Pos) (k : AlertKind) (res : EvalResult) (value : Int) : State :=
  s.applyMove p k ((s.alertAt p k).move res (s.setting .persistCount) (s.setting .clearCount)) value

/-- The limit set that a position applies (R25, R104). -/
def State.limitsOf (s : State) (p : Pos) : LimitSet := s.eval.limits.get (s.limitIndex p)

/-- R108: LOW of a sample; skipped when the cold pressure is invalid. -/
def State.evalLow (s : State) (p : Pos) (x : Sample) : State :=
  match x.cold with
  | none => s
  | some c => s.evaluate p .low (lowResult (s.limitsOf p) (s.setting .pressureHyst) c) c

/-- R109, R124: HIGH of a sample; skipped when the cold pressure is invalid and during the tipping freeze. -/
def State.evalHigh (s : State) (p : Pos) (x : Sample) : State :=
  match x.cold with
  | none => s
  | some c =>
    if s.frozen then s
    else s.evaluate p .high (highResult (s.limitsOf p) (s.setting .pressureHyst) c (x.code == 1023)) c

/-- R110: HOT of a sample; skipped when the sample carries no valid temperature of its own. -/
def State.evalHot (s : State) (p : Pos) (x : Sample) : State :=
  match x.temp with
  | .absent => s
  | .invalid => s
  | .celsius t => s.evaluate p .hot (hotResult (s.limitsOf p) (s.setting .tempHyst) t) t

/-- R111: SENSOR of a sample. -/
def State.evalSensor (s : State) (p : Pos) (x : Sample) : State :=
  s.evaluate p .sensor (sensorResult x) (sensorValue x)

/-- R112, R113: MISMATCH of the twin pair that a sampled position belongs to. -/
def State.evalMismatch (s : State) (p : Pos) : State :=
  match twinPartner s.layout p, pairOuter s.layout p with
  | some q, some o =>
    match (s.posAt p).sample.bind Sample.cold, (s.posAt q).sample.bind Sample.cold with
    | some a, some b =>
      if (s.posAt p).state = .bound ∧ (s.posAt q).state = .bound ∧ s.lifted p = false ∧ s.frozen = false then
        let d : Int := ((a : Int) - b).natAbs
        s.evaluate o .mismatch (mismatchResult (s.setting .mismatchLimit) (s.setting .pressureHyst) d) d
      else s
    | _, _ => s
  | _, _ => s

/-- R115: LEAK on an ALERT telegram: ALARM without persistence. -/
def State.evalAlertTelegram (s : State) (p : Pos) : State :=
  s.applyMove p .leak (s.alertAt p .leak).moveAlertTelegram ((s.posAt p).leak.getD 0)

/-- R114: LEAK of a rate. -/
def State.evalLeak (s : State) (p : Pos) (q : Int) : State :=
  s.evaluate p .leak (leakResult (s.setting .leakLimits) (s.settingHigh .leakLimits) q) q

/-- R107: the position's records are evaluated only while it is BOUND or SUSPECT. -/
def BindState.evaluated (b : BindState) : Bool := b = .bound || b = .suspect

/-- R107: the evaluations of a sample, in this order: LOW, HIGH, HOT, SENSOR, MISMATCH and, for an ALERT telegram,
LEAK. -/
def State.evaluateSample (s : State) (p : Pos) (x : Sample) : State :=
  let s := ((((s.evalLow p x).evalHigh p x).evalHot p x).evalSensor p x).evalMismatch p
  if x.kind = .alert then s.evalAlertTelegram p else s

/-- R116: the SILENT condition becomes true: a CLEAR record becomes ACTIVE at WARN; its value is E. -/
def State.beginSilent (s : State) (p : Pos) : State :=
  let s := s.modPos p (fun x => { x with silent := true })
  let r := s.alertAt p .silent
  if r.state = .clear then s.applyMove p .silent (r.raisedAt .warn, .raised) ((s.posAt p).interval.getD 0) else s

/-- R99, R116: the SILENT condition ends: an ACTIVE record becomes CLEAR. -/
def State.endSilent (s : State) (p : Pos) : State :=
  if (s.posAt p).silent then
    let s := s.modPos p (fun x => { x with silent := false })
    let r := s.alertAt p .silent
    if r.state = .active then s.applyMove p .silent (r.cleared, .cleared) 0 else s
  else s

/-- R9: the withdrawal of one alert record. -/
def State.withdraw (s : State) (p : Pos) (k : AlertKind) : State :=
  let r := s.alertAt p k
  let t := s.setAlert p k r.cleared false
  if r.standing then t.alertNotice .alertWithdrawn p k r.level r.value else t

/-- R9: the withdrawal of all seven records of a position, which also ends the SILENT condition (R99). -/
def State.withdrawAll (s : State) (p : Pos) : State :=
  (alertKinds.foldl (fun t k => t.withdraw p k) s).modPos p (fun x => { x with silent := false })

/-- R125: an ACK of one record. -/
def State.ackOne (s : State) (p : Pos) (k : AlertKind) : State :=
  let r := s.alertAt p k
  if r.standing then s.setAlert p k { r with acked := true } false else s

/-- R125: an ACK of the kinds of a mask at a position. -/
def State.ackPosition (s : State) (mask : Word) (p : Pos) : State :=
  alertKinds.foldl (fun t k => if mask.getLsbD k.num then t.ackOne p k else t) s

end Sys2Proof.Machine
end

