-- ==== Sys2Proof/Machine/Candidates.lean ====
section
/-! DEFINITION. The candidate list (chapter 3) and the trigger queue with the fire records' release (R61, R62, R70):
entries, the strongest lane, removal on binding with the interval handed over, ageing, the offer of a request. -/

namespace Sys2Proof.Machine

/-! ### The trigger queue and the fire records -/

/-- R62: COMMAND ranks highest, then LOCATE, then ATTACH, then RECHECK. -/
def Purpose.rank : Purpose → Nat
  | .command => 3
  | .locate => 2
  | .attach => 1
  | .recheck => 0

/-- R62: an offered request merged into a queued one. -/
def Request.merge (queued offered : Request) : Request :=
  if queued.purpose.rank < offered.purpose.rank then
    { queued with purpose := offered.purpose, tag := offered.tag }
  else if queued.purpose = .command ∧ offered.purpose = .command then { queued with tag := offered.tag }
  else queued

/-- R61, R62: a request that the queue takes joins the tail or merges. -/
def takeRequest (q : List Request) (r : Request) : List Request :=
  if q.any (fun x => x.coil == r.coil) then q.map (fun x => if x.coil = r.coil then x.merge r else x)
  else q ++ [r]

/-- R61: an offered request enters only in RUN and for an available coil. -/
def State.offer (s : State) (r : Request) : State :=
  { s with trigger := { s.trigger with
      queue := if s.control.op = .run ∧ s.available r.coil = true then takeRequest s.trigger.queue r
               else s.trigger.queue } }

/-- New requests of one purpose and tag offered for coils in order. -/
def State.offerEach (s : State) (cs : List Coil) (purpose : Purpose) (tag : Byte) : State :=
  cs.foldl (fun t c => t.offer { coil := c, purpose := purpose, attempts := 0, tag := tag }) s

/-- The response list of a record holds an ID. -/
def FireRec.answeredBy (r : FireRec) (id : SensorId) : Bool := r.responses.any (fun x => x.id == id)

/-- R70: records leave: the CLAIMED flag is cleared of each of their IDs that no remaining record holds. -/
def State.dropRecords (s : State) (gone : FireRec → Bool) : State :=
  { s with
    trigger := { s.trigger with records := s.trigger.records.filter (fun r => !(gone r)) }
    candidates := s.candidates.map (fun e =>
      if (s.trigger.records.any (fun r => gone r && r.answeredBy e.id)) &&
         !(s.trigger.records.any (fun r => !(gone r) && r.answeredBy e.id)) then { e with claimed := false } else e) }

/-- R85, R86: the teardown of coils: their queued requests and their records go. -/
def State.tearDown (s : State) (torn : Coil → Bool) : State :=
  let t := s.dropRecords (fun r => torn r.coil)
  { t with trigger := { t.trigger with queue := t.trigger.queue.filter (fun r => !(torn r.coil)) } }

/-! ### Strongest lane (R50) -/

/-- R50: the mean level of lane x is above that of lane y, as exact quotients; a lane without hits has no mean. -/
def meanAbove (e : Candidate) (x y : Lane) : Bool :=
  e.hits.get x != 0 &&
    (e.hits.get y == 0 || e.sums.get y * e.hits.get x < e.sums.get x * e.hits.get y)

/-- R50: the strongest lane; of equal means the earliest letter wins. -/
def Candidate.strongest (e : Candidate) : Lane :=
  [Lane.b, Lane.c, Lane.d].foldl (fun best l => if meanAbove e l best then l else best) .a

/-! ### Entries (R46, R47, R51, R52) -/

/-- R46: the entry that a telegram creates. -/
def newCandidate (t : RecentEntry) (claimed : Bool) : Candidate :=
  { id := t.payload.id, firstHeard := t.firstArrival, lastHeard := t.firstArrival, telegrams := 1,
    rolling := if t.payload.motion then 1 else 0, still := if t.payload.motion then 0 else 1,
    hits := .tabulate (fun l => if (t.heard.get l).isSome then 1 else 0),
    sums := .tabulate (fun l => match t.heard.get l with | some v => v.toNat | none => 0),
    motion := t.payload.motion, code := t.payload.code, temp := t.payload.temp, answer := none,
    persistent := false, stationary := false, claimed := claimed }

/-- R47: a lane of an entry counts a telegram unless its hit count has reached 255. -/
def Candidate.countsLane (e : Candidate) (t : RecentEntry) (l : Lane) : Bool :=
  (t.heard.get l).isSome && e.hits.get l < Config.count8

/-- R47: the update of an entry by a telegram. -/
def Candidate.update (e : Candidate) (t : RecentEntry) : Candidate :=
  { e with
    lastHeard := max e.lastHeard t.firstArrival
    telegrams := satAdd Config.count8 e.telegrams 1
    rolling := if t.payload.motion then satAdd Config.count8 e.rolling 1 else e.rolling
    still := if t.payload.motion then e.still else satAdd Config.count8 e.still 1
    hits := .tabulate (fun l => if e.countsLane t l then e.hits.get l + 1 else e.hits.get l)
    sums := .tabulate (fun l =>
      if e.countsLane t l then e.sums.get l + (match t.heard.get l with | some v => v.toNat | none => 0)
      else e.sums.get l)
    motion := t.payload.motion
    code := t.payload.code
    temp := match t.payload.temp with | .absent => e.temp | .invalid => .invalid | .celsius c => .celsius c
    stationary := e.stationary && !(t.payload.motion) }

/-- R51, R52: the span and count tests of the judgements. -/
def Candidate.spanMet (e : Candidate) (spanS : Nat) : Bool := 1000 * spanS ≤ e.lastHeard - e.firstHeard

/-- R51: the entry becomes PERSISTENT. -/
def Candidate.becomesPersistent (e : Candidate) (threshold spanS : Nat) : Bool :=
  !e.persistent && threshold ≤ e.rolling && e.spanMet spanS

/-- R52: the entry becomes STATIONARY. -/
def Candidate.becomesStationary (e : Candidate) (threshold spanS : Nat) : Bool :=
  !e.stationary && !e.persistent && e.rolling == 0 && threshold ≤ e.still && e.spanMet spanS

/-- R51, R52: an entry after the judgements. -/
def Candidate.judged (e : Candidate) (threshold spanS : Nat) : Candidate :=
  if e.becomesPersistent threshold spanS then { e with persistent := true, stationary := false }
  else if e.becomesStationary threshold spanS then { e with stationary := true }
  else e

/-- The entry of an ID. -/
def State.candidate (s : State) (id : SensorId) : Option Candidate := s.candidates.find? (fun e => e.id == id)

/-- R49: some OPEN or CLOSING record holds the ID. -/
def State.answered (s : State) (id : SensorId) : Bool := s.trigger.records.any (fun r => r.answeredBy id)

/-! ### Eviction (R48) -/

/-- R48: the non-CLAIMED entry with the oldest last-heard time, the one nearest the head of equals. -/
def oldestUnclaimed : List Candidate → Option Candidate
  | [] => none
  | e :: es =>
    match oldestUnclaimed es with
    | none => if e.claimed then none else some e
    | some o => if e.claimed then some o else if o.lastHeard < e.lastHeard then some o else some e

/-- R46, R48: the list after a new entry; unchanged when all 32 entries are CLAIMED. -/
def insertCandidate (cs : List Candidate) (e : Candidate) : List Candidate :=
  if cs.length < Config.candidatePlaces then cs ++ [e]
  else
    match oldestUnclaimed cs with
    | some o => cs.filter (fun x => x.id != o.id) ++ [e]
    | none => cs

/-! ### Persistence requests (R53) -/

/-- R53: a coil serves an UNLEARNED position, or a SUSPECT one whose home lane is the lane. -/
def State.wantsLocate (s : State) (l : Lane) (c : Coil) : Bool :=
  (servedBy s.layout c).any (fun p =>
    (s.posAt p).state == .unlearned || ((s.posAt p).state == .suspect && (s.posAt p).homeLane == some l))

/-- R51, R53: an entry has become PERSISTENT: its notice, then the LOCATE requests, which only RUN takes. -/
def State.announcePersistent (s : State) (e : Candidate) : State :=
  let s := s.notify .candidatePersistent none 0 e.id (BitVec.ofNat 32 (laneNum e.strongest))
  if s.control.op = .run then
    s.offerEach (coilsInOrder.filter (fun c => s.available c && s.wantsLocate e.strongest c)) .locate 0
  else s

/-- R46 to R52: the list receives a settled telegram. -/
def State.receiveCandidate (s : State) (t : RecentEntry) : State :=
  match s.candidate t.payload.id with
  | none => { s with candidates := insertCandidate s.candidates (newCandidate t (s.answered t.payload.id)) }
  | some e =>
    let u := e.update t
    let j := u.judged (s.setting .rollingThreshold) (s.setting .persistSpan)
    let s' := { s with candidates := s.candidates.map (fun x => if x.id = e.id then j else x) }
    if u.becomesPersistent (s.setting .rollingThreshold) (s.setting .persistSpan) then s'.announcePersistent j else s'

/-! ### Leaving the list (R54 to R57) -/

/-- R55: the interval in sixteenths and the motion flag that an entry hands over, when its count is 2 or more. -/
def Candidate.handover (e : Candidate) : Option (Nat × Bool) :=
  if 2 ≤ e.telegrams then
    some (roundDiv ((e.lastHeard - e.firstHeard) * 16) (1000 * (e.telegrams - 1)), e.motion)
  else none

/-- R55: what the list hands over for an ID. -/
def State.handoverOf (s : State) (id : SensorId) : Option (Nat × Bool) := (s.candidate id).bind Candidate.handover

/-- R54: an ID leaves the list. -/
def State.removeCandidate (s : State) (id : SensorId) : State :=
  { s with candidates := s.candidates.filter (fun e => e.id != id) }

/-- R56: ageing at the start of a publication. -/
def State.ageCandidates (s : State) : State :=
  { s with candidates := s.candidates.filter (fun e =>
      e.claimed || s.now ≤ e.lastHeard + 60000 * s.setting .ageLimit) }

/-- R57: FORGET CANDIDATES. -/
def State.forgetCandidates (s : State) : State :=
  { s with candidates := s.candidates.filter (fun e => e.claimed) }

/-- R58: some PERSISTENT entry has the lane as its strongest. -/
def State.persistentOn (s : State) (l : Lane) : Bool :=
  s.candidates.any (fun e => e.persistent && e.strongest == l)

end Sys2Proof.Machine
end

