-- ==== Sys2Proof/Machine/Arrival.lean ====
section
/-! DEFINITION. The arrival tracker (chapter 5): interval ranges and clamps (R89, R90), the start of a binding (R91),
learning the interval (R92 to R94), the silence deadline and its expiry (R96 to R98), the SILENT condition (R99). -/

namespace Sys2Proof.Machine

/-- R89: the rolling or the parked range, in sixteenths of a second. -/
def State.rangeFor (s : State) (rolling : Bool) : Nat × Nat :=
  let w : SettingWord := if rolling then .rollingRange else .parkedRange
  (16 * s.setting w, 16 * s.settingHigh w)

/-- R89: whether the rolling range applies to a record, from the last sample's motion flag, else from the flag handed
over at binding, else rolling. -/
def PosRec.rolls (r : PosRec) : Bool :=
  match r.sample with
  | some x => x.motion
  | none => r.handedMotion.getD true

/-- R89: the applicable range of a position, in sixteenths. -/
def State.rangeOf (s : State) (p : Pos) : Nat × Nat := s.rangeFor (!(s.lifted p) && (s.posAt p).rolls)

/-- R90: a value clamped into a range. -/
def clampTo (range : Nat × Nat) (e : Nat) : Nat := max range.1 (min range.2 e)

/-- R96: the armed deadline has been reached: base + M × E, with E converted from sixteenths to ms exactly, is at or
before now. -/
def State.deadlineReached (s : State) (r : PosRec) : Bool :=
  match r.deadline, r.interval with
  | some base, some e => 2 * base + 125 * (s.setting .silenceMultiple) * e ≤ 2 * s.now
  | _, _ => false

/-- R98: the lookup at the expiry of a BOUND position's deadline, and the LOCATE request for its coil. -/
def State.locateSilent (s : State) (p : Pos) : State :=
  match (s.posAt p).homeLane, sideCoil p with
  | some l, some c =>
    if s.persistentOn l then s.offer { coil := c, purpose := .locate, attempts := 0, tag := 0 } else s
  | _, _ => s

/-- R97: the expiry of a deadline. The deadline becomes absent; a BOUND position becomes SUSPECT, its SILENT condition
becomes true, and the lookup is made; any other state stays. -/
def State.expire (s : State) (p : Pos) : State :=
  let s := s.modPos p (fun r => { r with deadline := none })
  if (s.posAt p).state = .bound then
    ((s.modPos p (fun r => { r with state := .suspect })).beginSilent p).locateSilent p
  else s

/-- R96: a recomputed deadline that lies at or before the current time expires at once. -/
def State.expireIfReached (s : State) (p : Pos) : State :=
  if s.deadlineReached (s.posAt p) then s.expire p else s

/-- R90, R93, R96: E takes a value; when it changes, an armed deadline is recomputed from its base. -/
def State.setInterval (s : State) (p : Pos) (e : Nat) : State :=
  if (s.posAt p).interval = some e then s
  else (s.modPos p (fun r => { r with interval := some e })).expireIfReached p

/-- R90: E clamped into the applicable range. -/
def State.clampInterval (s : State) (p : Pos) : State :=
  match (s.posAt p).interval with
  | some e => s.setInterval p (clampTo (s.rangeOf p) e)
  | none => s

/-- R90: E of every position clamped, in index order: a layout word, a vehicle state word or a range was taken. The
range is the one that the last sample's motion flag selects, so a lowered axle whose last sample has motion set has E
clamped into the rolling range when the word is taken. DEDUCED. Log 42 -/
def State.clampAll (s : State) : State := positionsInOrder.foldl State.clampInterval s

/-- R96: the deadline armed, in RUN only, with a base. -/
def State.arm (s : State) (p : Pos) (base : Time) : State :=
  s.modPos p (fun r => { r with deadline := if s.control.op = .run then some base else none })

/-- R8, R91: the arrival fields at their reset values. -/
def PosRec.noArrival (r : PosRec) : PosRec :=
  { r with interval := none, drift := 0, deadline := none, missed := 0, reference := none, handedMotion := none }

/-- R91: the start of a binding, with what the candidate list handed over, if anything. -/
def State.startBinding (s : State) (p : Pos) (handed : Option (Nat × Bool)) : State :=
  let s := s.modPos p (fun r => { r.noArrival with handedMotion := handed.map Prod.snd })
  let e := match handed with
    | some h => clampTo (s.rangeOf p) h.1
    | none => (s.rangeOf p).2
  (s.modPos p (fun r => { r with interval := some e })).arm p s.now

/-- R33, R88: a routine sample is PERIODIC or PARKED. -/
def TelegramKind.routine : TelegramKind → Bool
  | .periodic => true
  | .alert => false
  | .triggered => false
  | .parked => true

/-- R93: the drift count after an interval, from 16 × G and 1,000 × E. -/
def driftAfter (d g16 e1000 : Int) : Int :=
  if e1000 < g16 then (if 0 ≤ d then d + 1 else 1)
  else if g16 < e1000 then (if d ≤ 0 then d - 1 else -1)
  else d

/-- R93: a gap that is an interval: the drift count moves, and at ±U it steps E and returns to 0. -/
def State.takeInterval (s : State) (p : Pos) (e : Nat) (g16 : Int) : State :=
  let u : Int := s.setting .driftLimit
  let d := driftAfter (s.posAt p).drift g16 (1000 * e)
  if u ≤ d then
    (s.modPos p (fun r => { r with drift := 0 })).setInterval p (clampTo (s.rangeOf p) (e + s.setting .driftStep))
  else if d ≤ -u then
    (s.modPos p (fun r => { r with drift := 0 })).setInterval p (clampTo (s.rangeOf p) (e - s.setting .driftStep))
  else s.modPos p (fun r => { r with drift := d })

/-- R94: a long gap: the missed count rises by round(G ÷ E) − 1. -/
def State.takeLongGap (s : State) (p : Pos) (e : Nat) (g16 : Int) : State :=
  s.modPos p (fun r => { r with missed := satAdd Config.count8 r.missed (roundDiv g16.toNat (1000 * e) - 1) })

/-- R92 step 2: the gap test of a routine sample against the interval reference. -/
def State.gapTest (s : State) (p : Pos) (arrival : Time) : State :=
  match (s.posAt p).reference, (s.posAt p).interval with
  | some ref, some e =>
    let g16 : Int := 16 * ((arrival : Int) - (ref : Int))
    if g16 ≤ 1500 * (e : Int) then s.takeInterval p e g16 else s.takeLongGap p e g16
  | _, _ => s

/-- R92: what the tracker does with a sample, in this order: the clamp, the gap test with the reference, the deadline,
the end of SILENT. A position that the clamp or the step of E expired inside the sample is SUSPECT when the deadline is
armed again, and the sample makes it BOUND (R97, the expiry taken first). DEDUCED. Log 14 -/
def State.track (s : State) (p : Pos) (kind : TelegramKind) (arrival : Time) : State :=
  let s := s.clampInterval p
  let s := if s.control.op = .run ∧ kind.routine = true then
      (s.gapTest p arrival).modPos p (fun r => { r with reference := some arrival })
    else s
  let s := if s.control.op = .run then s.arm p arrival else s
  (s.modPos p (fun r => { r with state := if r.state = .suspect then .bound else r.state })).endSilent p

/-- R101: a new drift limit sets every drift count of that magnitude or more to 0. -/
def State.dropDrifts (s : State) : State :=
  s.mapPos (fun _ r => { r with drift := if s.setting .driftLimit ≤ r.drift.natAbs then 0 else r.drift })

/-- R101: a new silence multiple: every armed deadline is recomputed, and one that is reached expires at once, in index
order. -/
def State.recomputeDeadlines (s : State) : State := positionsInOrder.foldl State.expireIfReached s

/-- R22, R100: leaving RUN cancels every deadline and clears every interval reference. -/
def State.cancelDeadlines (s : State) : State :=
  s.mapPos (fun _ r => { r with deadline := none, reference := none })

/-- R22, R100: entering RUN arms a deadline, at now, for each position that holds an ID other than a DETACHED one. -/
def State.armAll (s : State) : State :=
  s.mapPos (fun _ r =>
    { r with deadline := if r.state.holdsId && r.state != .detached then some s.now else r.deadline })

end Sys2Proof.Machine
end

