-- ==== Sys2Proof/Machine/Bindings.lean ====
section
/-! DEFINITION. The position table (chapter 1): the change of the ID a record holds (R6 to R8), entry into a state
(R9), the binding commands (R10 to R14), the trailer fall (R18), the layout (R3, R4, R86), leaving RUN (R22), and the
taking of a sample (R23, R24). -/

namespace Sys2Proof.Machine

/-- What causes a change of a record (R21). -/
inductive Cause where
  | command | layout | trailer | classification
  deriving DecidableEq, Repr

/-- R21: every move claim that names an ID is cleared. -/
def State.clearClaims (s : State) (id : SensorId) : State :=
  s.mapPos (fun _ r => { r with claim := if r.claim = some id then none else r.claim })

/-- R21: the position table clears the recheck-outstanding flag of a position; when the flag was set and the cause is
not a classification, every claim that names the position's ID goes with it. DEDUCED. Log 15 -/
def State.clearRecheck (s : State) (p : Pos) (cause : Cause) : State :=
  let r := s.posAt p
  let t := s.modPos p (fun x => { x with recheck := false })
  if r.recheck = true ∧ cause ≠ .classification then
    (match r.id with
     | some id => t.clearClaims id
     | none => t)
  else t

/-- R9: a position enters a state without a change of its ID: outside BOUND and SUSPECT its alert records are
withdrawn. -/
def State.enter (s : State) (p : Pos) (b : BindState) : State :=
  let t := if b.evaluated then s else s.withdrawAll p
  t.modPos p (fun r => { r with state := b })

/-- R8: the fields that describe the sensor, at their reset values. -/
def PosRec.emptied (r : PosRec) : PosRec :=
  { r with sample := none, lastTemp := none, homeLane := none, leak := none, claim := none }

/-- R8: the MISMATCH record of the outer slot goes when either slot of a twin pair changes its ID. -/
def State.withdrawPair (s : State) (p : Pos) : State :=
  match pairOuter s.layout p with
  | some o => s.withdraw o .mismatch
  | none => s

/-- R5, R7, R8: a record gives up its ID: the alert records are withdrawn, the epoch rises, the fields that describe the
sensor are emptied, and the arrival fields return to their reset values. DESIGN CHOICE: the MISMATCH record of the pair's
outer slot is withdrawn after the record's own seven. Log 38 -/
def State.giveUp (s : State) (p : Pos) (b : BindState) (cause : Cause) : State :=
  let s := ((s.withdrawAll p).withdrawPair p).clearRecheck p cause
  s.modPos p (fun r => { r.emptied.noArrival with state := b, id := none, epoch := r.epoch + 1 })

/-- R5 to R8, R54, R91: a record takes an ID that no other record holds any more: the candidate entry leaves the list,
the record becomes BOUND with the ID, and the tracker starts the binding with what the entry handed over. The
withdrawals are ordered as in State.giveUp. DESIGN CHOICE. Log 38 -/
def State.takeId (s : State) (p : Pos) (id : SensorId) (cause : Cause) : State :=
  let handed := s.handoverOf id
  let s := (((s.removeCandidate id).withdrawAll p).withdrawPair p).clearRecheck p cause
  (s.modPos p (fun r => { r.emptied with state := .bound, id := some id, epoch := r.epoch + 1 })).startBinding p handed

/-- R13, R75, R76: two records exchange what they hold, as one change. A record that receives none becomes
UNLEARNED. DESIGN CHOICE: the alert records of the first record named are withdrawn before those of the second,
whatever their indices. Log 38 -/
def State.exchange (s : State) (p q : Pos) (cause : Cause) : State :=
  let a := (s.posAt p).id
  let b := (s.posAt q).id
  let s := match b with
    | some x => s.takeId p x cause
    | none => s.giveUp p .unlearned cause
  match a with
  | some x => s.takeId q x cause
  | none => s.giveUp q .unlearned cause

/-- R14: a position that a command changed while a record of its coil is OPEN or CLOSING leaves the fire's care. -/
def State.markOutOfCare (s : State) (p : Pos) : State :=
  { s with trigger := { s.trigger with records := s.trigger.records.map (fun r =>
      if sideCoil p = some r.coil ∧ !(r.outOfCare.contains p) then { r with outOfCare := r.outOfCare ++ [p] }
      else r) } }

/-! ### Commands on bindings (R10 to R13) -/

/-- R74, R11: a SUSPECT position's SILENT condition ends as on an arrival. -/
def State.settleSilent (s : State) (p : Pos) (was : BindState) : State :=
  if was = .suspect then s.endSilent p else s

/-- R11: BIND of the ID that the position holds. DESIGN CHOICE: the SILENT condition ends, with the ALERT CLEARED notice of its
record, before the BOUND notice is raised. Log 52 -/
def State.bindOwn (s : State) (p : Pos) (id : SensorId) (tag : Byte) : State :=
  let was := (s.posAt p).state
  let s := s.modPos p (fun r => { r with state := .bound, claim := none })
  let s := ((s.arm p s.now).settleSilent p was).markOutOfCare p
  s.notify .bound (some p) tag id 0

/-- R10 step 1: another record loses the ID. -/
def State.loseTo (s : State) (q : Pos) (id : SensorId) (tag : Byte) : State :=
  ((s.giveUp q .unlearned .command).markOutOfCare q).notify .unbound (some q) tag id 0

/-- R10: BIND of an ID that the position does not hold. -/
def State.bindOther (s : State) (p : Pos) (id : SensorId) (tag : Byte) : State :=
  let s := match s.holder id with
    | some q => s.loseTo q id tag
    | none => s
  ((s.takeId p id .command).markOutOfCare p).notify .bound (some p) tag id 0

/-- R10, R11: BIND with its checks. -/
def State.commandBind (s : State) (p : Pos) (id : SensorId) (tag : Byte) : State × CmdOutcome :=
  if (s.posAt p).state = .vacant ∨ validId id = false then (s, .refusedState)
  else if (s.posAt p).id = some id then (s.bindOwn p id tag, .done)
  else (s.bindOther p id tag, .done)

/-- R12: UNBIND. -/
def State.commandUnbind (s : State) (p : Pos) (tag : Byte) : State × CmdOutcome :=
  match (s.posAt p).state with
  | .vacant => (s, .refusedState)
  | .unlearned => (s, .done)
  | .locating => ((s.modPos p (fun r => { r with state := .unlearned })).markOutOfCare p, .done)
  | .bound | .suspect | .conflict | .detached =>
    (((s.giveUp p .unlearned .command).markOutOfCare p).notify .unbound (some p) tag ((s.posAt p).id.getD 0) 0, .done)

/-- R13: SWAP of two positions that pass its checks. -/
def State.swapPositions (s : State) (p q : Pos) (tag : Byte) : State :=
  let s := ((s.exchange p q .command).markOutOfCare p).markOutOfCare q
  s.notify .swapped (some p) tag ((s.posAt p).id.getD 0) (BitVec.ofNat 32 q.val)

/-- R13: SWAP with its checks; the argument's low byte is the other index. DESIGN CHOICE: an argument index above 25 is
tested before the state of p, so it answers REFUSED_RANGE also for a VACANT p. Log 47 -/
def State.commandSwap (s : State) (p : Pos) (argument : Word) (tag : Byte) : State × CmdOutcome :=
  match posOfByte (bits argument 0 8) with
  | none => (s, .refusedRange)
  | some q =>
    if (s.posAt p).state = .vacant ∨ (s.posAt q).state = .vacant ∨ p = q ∨
        ((s.posAt p).id = none ∧ (s.posAt q).id = none) then (s, .refusedState)
    else (s.swapPositions p q tag, .done)

/-! ### The trailer fall (R18) -/

/-- R18: an in-use trailer position when trailer-present falls, but for its notice. DESIGN CHOICE: a position that is
DETACHED already keeps every field, its recheck-outstanding flag among them, and the claims that name its ID stay, also
where the fall removes a RECHECK request of its coil (R85). Log 41 -/
def State.detachOne (s : State) (p : Pos) : State :=
  match (s.posAt p).state with
  | .locating => s.modPos p (fun r => { r with state := .unlearned })
  | .bound | .suspect | .conflict =>
    ((s.enter p .detached).clearRecheck p .trailer).modPos p (fun r => { r with deadline := none, claim := none })
  | .vacant => s
  | .unlearned => s
  | .detached => s

/-- R18: the positions that the fall detaches. -/
def State.detaches (s : State) (p : Pos) : Bool :=
  trailerPos s.layout p &&
    ((s.posAt p).state == .bound || (s.posAt p).state == .suspect || (s.posAt p).state == .conflict)

/-- R18: the position table's part of the trailer fall: every position first, then the TRAILER DETACHED notices in
index order. DEDUCED from the worked sequence of a trailer exchanged. Log 12 -/
def State.detachTrailer (s : State) : State :=
  let gone := positionsInOrder.filter s.detaches
  let s := (positionsInOrder.filter (fun p => trailerPos s.layout p)).foldl State.detachOne s
  gone.foldl (fun t p => t.notify .trailerDetached (some p) 0 ((t.posAt p).id.getD 0) 0) s

/-! ### The layout (R3, R4, R86) -/

/-- R3: a position leaves use: it becomes VACANT, and an ID it held is dropped with an UNBOUND notice. -/
def State.leaveUse (s : State) (p : Pos) (b : BindState) : State :=
  match (s.posAt p).id with
  | some id => (s.giveUp p b .layout).notify .unbound (some p) 0 id 0
  | none =>
    ((s.withdrawAll p).clearRecheck p .layout).modPos p (fun r => { r.emptied.noArrival with state := b })

/-- R3: a position enters use: UNLEARNED, with its sample, home lane and arrival fields at their reset values. -/
def State.enterUse (s : State) (p : Pos) : State :=
  s.modPos p (fun r => { r.emptied.noArrival with state := .unlearned })

/-- R3: what a taken layout does to one position. -/
def State.relayPosition (old new : Word) (s : State) (p : Pos) : State :=
  if inUse old p then
    (if inUse new p then
      (if trailerPos old p = trailerPos new p then s else s.leaveUse p .unlearned)
     else s.leaveUse p .vacant)
  else if inUse new p then s.enterUse p
  else s

/-- R4: the axles whose coils a layout word changes. -/
def axleChanges (old new : Word) (a : Axle) : Bool :=
  axleKind old a != axleKind new a || axleTrailer old a != axleTrailer new a

/-- R4: after the teardown, a LOCATING position of a changed axle becomes UNLEARNED, and the outer slot of an axle that
went from TWIN to SINGLE loses its MISMATCH record. -/
def State.relayAxlePosition (old new : Word) (s : State) (p : Pos) : State :=
  match axleOf p with
  | none => s
  | some a =>
    if axleChanges old new a then
      let s := if (s.posAt p).state = .locating then s.modPos p (fun r => { r with state := .unlearned }) else s
      if axleKind old a = .twin ∧ axleKind new a = .single ∧ inUse new p = true then s.withdraw p .mismatch else s
    else s

/-- R86: a coil of a changed axle that is still available and serves a position whose recheck-outstanding flag is
set. -/
def State.recheckAfterLayout (s : State) (old new : Word) (c : Coil) : Bool :=
  axleChanges old new (coilAxle c) && s.available c && (servedBy new c).any (fun p => (s.posAt p).recheck)

/-- R3, R4, R86, R90: the layout word is taken; the copy already holds the new word. DESIGN CHOICE: the MISMATCH records
of axles that went from TWIN to SINGLE are withdrawn after every change of R3 and its UNBOUND notice. Log 38. DESIGN CHOICE:
the clamp of R90 comes before the offers of R86, so a LOCATE of a deadline that it expires joins the trigger queue before
the RECHECK requests. Log 49. DESIGN CHOICE: the clamp comes after the changes of R3 and R4 and their notices. Log 53 -/
def State.takeLayout (s : State) (old new : Word) : State :=
  let s := positionsInOrder.foldl (State.relayPosition old new) s
  let s := s.tearDown (fun c => axleChanges old new (coilAxle c))
  let s := positionsInOrder.foldl (State.relayAxlePosition old new) s
  let s := s.clampAll
  s.offerEach (coilsInOrder.filter (s.recheckAfterLayout old new)) .recheck 0

/-! ### Leaving RUN (R22) -/

/-- R22: what leaving RUN does to every record; the deadlines are the tracker's (R100). -/
def State.leaveRunPositions (s : State) : State :=
  s.mapPos (fun _ r =>
    { r with state := if r.state = .locating then .unlearned else r.state, claim := none, recheck := false })

/-! ### Samples (R23, R24) -/

/-- R23: the home lane: the lane heard with the highest best level, the earlier letter of equals. -/
def bestLane (heard : Lanes (Option (BitVec 8))) : Option Lane :=
  lanesInOrder.foldl
    (fun best l =>
      match heard.get l, best with
      | none, _ => best
      | some _, none => some l
      | some v, some m => if ((heard.get m).getD 0).toNat < v.toNat then some l else some m)
    none

/-- R23: the last valid temperature after a sample. -/
def lastTempAfter (old : Option Int) (t : Temp) : Option Int :=
  match t with
  | .celsius c => some c
  | .absent => old
  | .invalid => old

/-- R23, R102: the sample that a settled telegram gives, with its absolute and its cold pressure; the compensation
temperature is the sample's own, else the last valid one, else 20 °C. -/
def sampleOf (t : RecentEntry) (lastTemp : Option Int) (patm : Nat) (settle : Time) : Sample :=
  { code := t.payload.code, absolute := absPressure t.payload.code, temp := t.payload.temp,
    cold := coldPressure t.payload.code ((lastTempAfter lastTemp t.payload.temp).getD 20) patm,
    motion := t.payload.motion, battery := t.payload.battery, fault := t.payload.fault, kind := t.payload.kind,
    seq := t.payload.seq, arrival := t.firstArrival, accepted := settle }

/-- R23, R24: the sample fields and the home lane are filled; a SUSPECT position becomes BOUND (R16). -/
def State.fillSample (s : State) (p : Pos) (t : RecentEntry) : State :=
  s.modPos p (fun r =>
    { r with
      sample := some (sampleOf t r.lastTemp (s.setting .patm) s.now)
      lastTemp := lastTempAfter r.lastTemp t.payload.temp
      homeLane := bestLane t.heard
      state := if r.state = .suspect then .bound else r.state })

/-- R23, R24, R42: a settled telegram routed to the position that holds its ID: taken and evaluated in BOUND and
SUSPECT, taken without evaluation in CONFLICT, ignored in DETACHED. -/
def State.applySample (s : State) (p : Pos) (t : RecentEntry) : State :=
  match (s.posAt p).state with
  | .bound | .suspect =>
    let f := s.fillSample p t
    let s := f.track p t.payload.kind t.firstArrival
    match (f.posAt p).sample with
    | some x => s.evaluateSample p x
    | none => s
  | .conflict => (s.fillSample p t).track p t.payload.kind t.firstArrival
  | .detached => s
  | .vacant => s
  | .unlearned => s
  | .locating => s

end Sys2Proof.Machine
end

