-- ==== Sys2Proof/Machine/Location.lean ====
section
/-! DEFINITION. The trigger unit (chapter 4): eligibility and the start of a fire (R63 to R66, R15), answers (R68,
R69), classification with its outcomes per slot (R71 to R81), and the offers of requests on edges, on entering RUN and
by command (R82 to R84). -/

namespace Sys2Proof.Machine

/-! ### Firing (R63 to R67) -/

/-- At least `span` ms have passed since a start, if there is one. -/
def spacedFrom (now span : Nat) : Option Time → Bool
  | none => true
  | some t => t + span ≤ now

/-- R63: the rolling window of the fire log. -/
def windowOpen (log : List Time) (now : Time) : Bool :=
  log.length < Config.logPlaces || spacedFrom now Config.rollingWindow log.head?

/-- R63: a queued request is eligible. -/
def State.eligible (s : State) (r : Request) : Bool :=
  s.control.op == .run && s.available r.coil && s.trigger.coils.get r.coil == .idle &&
  !(s.trigger.records.any (fun x => x.coil == r.coil)) &&
  s.trigger.records.length < Config.fireRecords &&
  spacedFrom s.now Config.anySpacing s.trigger.log.getLast? &&
  spacedFrom s.now Config.axleSpacing (s.trigger.lastStart.get (otherSide r.coil)) &&
  windowOpen s.trigger.log s.now &&
  s.speed ≤ s.setting .fireSpeed

/-- R66: the codes in the order of issue after the last issued one, counting 15 to 1 and skipping 0. -/
def codesAfter (last : BitVec 4) : List (BitVec 4) :=
  (List.range 15).map (fun k => BitVec.ofNat 4 ((last.toNat + k) % 15 + 1))

/-- R66: the code that the allocator issues: the next one that no OPEN or CLOSING record holds. -/
def Trigger.nextCode (t : Trigger) : Option (BitVec 4) :=
  (codesAfter t.lastCode).find? (fun c => !(t.records.any (fun r => r.code == c)))

/-- R64: the fire log after a start. -/
def logStart (log : List Time) (now : Time) : List Time :=
  if log.length < Config.logPlaces then log ++ [now] else log.tail ++ [now]

/-- R67: the record that a fire opens. -/
def openRecord (r : Request) (code : BitVec 4) (window : Nat) (now : Time) : FireRec :=
  { coil := r.coil, code := code, purpose := r.purpose, tag := r.tag, attempts := r.attempts + 1, start := now,
    window := window, closing := false, responses := [], overfull := false, outOfCare := [] }

/-- R65: the trigger unit after the start of a fire for a request with a code. -/
def Trigger.started (t : Trigger) (r : Request) (code : BitVec 4) (window : Nat) (now : Time) : Trigger :=
  { t with
    queue := t.queue.erase r
    records := t.records ++ [openRecord r code window now]
    log := logStart t.log now
    lastStart := t.lastStart.set r.coil.val (some now) r.coil.isLt
    lastCode := code
    coils := t.coils.set r.coil.val (.firing now code) r.coil.isLt }

/-- R15: the UNLEARNED positions of a coil become LOCATING. -/
def State.locating (s : State) (c : Coil) : State :=
  s.mapPos (fun p r =>
    if r.state = .unlearned ∧ (servedBy s.layout c).contains p then { r with state := .locating } else r)

/-- R65: the start of a fire for a request. -/
def State.startFire (s : State) (r : Request) : State :=
  match s.trigger.nextCode with
  | none => s
  | some code =>
    let t := { s with trigger := s.trigger.started r code (s.setting .responseWindow) s.now }
    if r.attempts = 0 then t.locating r.coil else t

/-- R65: the scheduler's test: a fire starts for the eligible request nearest the head of the queue, if there is
one. -/
def State.schedule (s : State) : State :=
  match s.trigger.queue.find? s.eligible with
  | some r => s.startFire r
  | none => s

/-- R67: the end of a record's OPEN period. -/
def FireRec.openEnds (r : FireRec) : Time := r.start + Config.burst + r.window

/-- R67: the end of a record's CLOSING period. -/
def FireRec.closingEnds (r : FireRec) : Time := r.openEnds + Config.closing

/-! ### Answers (R68, R69) -/

/-- R68: an answer joins a record: its echo is the record's code and its first arrival lies in the OPEN period. -/
def FireRec.accepts (r : FireRec) (echo : BitVec 4) (arrival : Time) : Bool :=
  r.code == echo && r.start ≤ arrival && arrival < r.openEnds

/-- R68: an ID and level into a response list. -/
def FireRec.answer (r : FireRec) (id : SensorId) (lf : BitVec 4) : FireRec :=
  if r.answeredBy id then
    { r with responses := r.responses.map (fun x => if x.id = id ∧ x.lf.toNat < lf.toNat then { x with lf := lf } else x) }
  else if r.responses.length < Config.responsePlaces then { r with responses := r.responses ++ [{ id := id, lf := lf }] }
  else { r with overfull := true }

/-- R68, R49: whether an answer is appended to or updates a record's response list. -/
def FireRec.admitsAnswer (r : FireRec) (id : SensorId) : Bool :=
  r.answeredBy id || r.responses.length < Config.responsePlaces

/-- The level that a record holds for an ID (R49: the last trigger answer takes the updated level). -/
def FireRec.levelOf (r : FireRec) (id : SensorId) : BitVec 4 :=
  ((r.responses.find? (fun x => x.id == id)).map Response.lf).getD 0

/-- R49: an entry's CLAIMED flag and last trigger answer, written when an answer joins a record. -/
def Candidate.answeredIn (e : Candidate) (r : FireRec) : Candidate :=
  { e with claimed := true, answer := some { coil := r.coil, code := r.code, lf := r.levelOf e.id } }

/-- R68, R69: a settled TRIGGERED telegram offered to the trigger unit. -/
def State.offerAnswer (s : State) (id : SensorId) (echo lf : BitVec 4) (arrival : Time) : State :=
  match s.trigger.records.find? (fun r => r.accepts echo arrival) with
  | none => { s with trigger := { s.trigger with stale := satAdd Config.count16 s.trigger.stale 1 } }
  | some r =>
    { s with
      trigger := { s.trigger with records := s.trigger.records.map (fun x =>
        if x.coil = r.coil then x.answer id lf else x) }
      candidates := if r.admitsAnswer id then
          s.candidates.map (fun e => if e.id = id then e.answeredIn (r.answer id lf) else e)
        else s.candidates }

/-! ### Outcomes per slot (R73 to R79) -/

/-- R96: whether a confirmation arms the deadline: SUSPECT and DETACHED positions always, BOUND and CONFLICT ones when
it is absent. DEDUCED: this holds also for a BOUND or CONFLICT position whose armed deadline has been reached and not yet
been taken, against the last sentence of R97. Log 50 -/
def PosRec.armsOnConfirm (r : PosRec) : Bool :=
  r.state == .suspect || r.state == .detached || r.deadline.isNone

/-- R74: confirm. -/
def State.confirm (s : State) (p : Pos) (tag : Byte) : State :=
  let was := s.posAt p
  let s := s.modPos p (fun r => { r with state := .bound, claim := none })
  let s := if was.armsOnConfirm then s.arm p s.now else s
  let s := s.settleSilent p was.state
  if was.state = .detached then s.notify .trailerAttached (some p) tag (was.id.getD 0) 0 else s

/-- R75: exchange within the coil; the notice carries the outer slot. -/
def State.exchangeWithin (s : State) (c : Coil) (tag : Byte) : State :=
  let s := s.exchange (innerPos c) (outerPos c) .classification
  s.notify .swapped (some (outerPos c)) tag ((s.posAt (outerPos c)).id.getD 0) (BitVec.ofNat 32 (innerPos c).val)

/-- R76: exchange by claim. -/
def State.exchangeByClaim (s : State) (p q : Pos) (tag : Byte) : State :=
  let s := s.exchange p q .classification
  s.notify .swapped (some p) tag ((s.posAt p).id.getD 0) (BitVec.ofNat 32 q.val)

/-- R77: move. -/
def State.moveTo (s : State) (p q : Pos) (x : SensorId) (tag : Byte) : State :=
  let s := (s.giveUp q .unlearned .classification).takeId p x .classification
  s.notify .moved (some p) tag x (BitVec.ofNat 32 q.val)

/-- R78: the claim, and what follows from where its holder q lies. -/
def State.claimFor (s : State) (c : Coil) (p q : Pos) (x : SensorId) (tag : Byte) : State :=
  let s := s.modPos p (fun r => { r with claim := some x })
  if sideCoil q = some c then s
  else
    match (servingCoil s.layout q).filter s.available with
    | some d =>
      (s.offer { coil := d, purpose := .recheck, attempts := 0, tag := tag }).modPos q
        (fun r => { r with recheck := true })
    | none => (s.enter p .conflict).notify .conflict (some p) tag ((s.posAt p).id.getD 0) x

/-- R79: bind or replace. -/
def State.bindOrReplace (s : State) (p : Pos) (x : SensorId) (tag : Byte) : State :=
  match (s.posAt p).id with
  | none => (s.takeId p x .classification).notify .bound (some p) tag x 0
  | some y => (s.takeId p x .classification).notify .replaced (some p) tag x y

/-- R74 to R79: the outcome of one assigned slot but for the exchange within the coil. -/
def State.slotOutcome (s : State) (c : Coil) (p : Pos) (x : SensorId) (tag : Byte) : State :=
  if (s.posAt p).id = some x then s.confirm p tag
  else
    match s.holder x with
    | none => s.bindOrReplace p x tag
    | some q =>
      match (s.posAt p).id with
      | none => s.moveTo p q x tag
      | some y => if (s.posAt q).claim = some y then s.exchangeByClaim p q tag else s.claimFor c p q x tag

/-- R75: the responder x at slot p is held by another assigned slot to which this classification assigns p's own ID. -/
def State.exchangesWithin (s : State) (asg : List (Pos × SensorId)) (p : Pos) (x : SensorId) : Bool :=
  match (s.posAt p).id with
  | none => false
  | some y => asg.any (fun a => a.1 != p && a.2 == y && (s.posAt a.1).id == some x)

/-- R74: the assigned slots in processing order; an exchange within the coil settles the other slot too. -/
def State.settleSlots (c : Coil) (tag : Byte) (asg : List (Pos × SensorId)) : List (Pos × SensorId) → State → State
  | [], s => s
  | (p, x) :: rest, s =>
    if s.exchangesWithin asg p x then s.exchangeWithin c tag
    else State.settleSlots c tag asg rest (s.slotOutcome c p x tag)

/-- R73: the failure outcome of an assigned slot. -/
def State.failSlot (s : State) (p : Pos) (tag : Byte) : State :=
  let id := (s.posAt p).id.getD 0
  match (s.posAt p).state with
  | .locating => (s.modPos p (fun r => { r with state := .unlearned })).notify .locateFailed (some p) tag 0 0
  | .unlearned => s
  | .vacant => s
  | .detached => (s.giveUp p .unlearned .classification).notify .unbound (some p) tag id 0
  | .bound | .suspect | .conflict => s.notify .recheckInconclusive (some p) tag id 0

/-! ### Classification (R71, R72, R73, R80) -/

/-- R71: the slots that a record's classification may assign: in-use positions of the coil without an out-of-care
mark, the inner before the outer. -/
def assignedSlots (layout : Word) (r : FireRec) : List Pos :=
  (servedBy layout r.coil).filter (fun p => !(r.outOfCare.contains p))

/-- R71: the responders per slot of a full assignment, or none when the answer is no full assignment. -/
def fullAssignment (layout : Word) (margin : Nat) (r : FireRec) : Option (List (Pos × SensorId)) :=
  if r.overfull then none
  else
    match axleKind layout (coilAxle r.coil), r.responses with
    | .single, [x] => some [(outerPos r.coil, x.id)]
    | .twin, [x, y] =>
      if y.lf.toNat + margin ≤ x.lf.toNat then some [(innerPos r.coil, x.id), (outerPos r.coil, y.id)]
      else if x.lf.toNat + margin ≤ y.lf.toNat then some [(innerPos r.coil, y.id), (outerPos r.coil, x.id)]
      else none
    | _, _ => none

/-- R73: the slot that a partial answer confirms: on a TWIN axle, the assigned slot that holds the only responder.
DEDUCED for a coil whose other slot is marked. Log 17 -/
def State.partialSlot (s : State) (r : FireRec) : Option Pos :=
  match axleKind s.layout (coilAxle r.coil), r.responses with
  | .twin, [x] => (assignedSlots s.layout r).find? (fun p => decide ((s.posAt p).id = some x.id))
  | _, _ => none

/-- R80: a claim that names an ID of W makes its position CONFLICT. -/
def State.settleClaim (w : List SensorId) (tag : Byte) (s : State) (p : Pos) : State :=
  match (s.posAt p).claim with
  | none => s
  | some x =>
    if w.contains x then
      ((s.enter p .conflict).modPos p (fun r => { r with claim := none })).notify .conflict (some p) tag
        ((s.posAt p).id.getD 0) x
    else s

/-- R80: the end of a completed classification: the claims that name an ID of W, in index order, then the
recheck-outstanding flags of the coil's positions. -/
def State.complete (s : State) (c : Coil) (w : List SensorId) (tag : Byte) : State :=
  let s := positionsInOrder.foldl (State.settleClaim w tag) s
  s.mapPos (fun p r => if (servedBy s.layout c).contains p then { r with recheck := false } else r)

/-- R73: a final classification without a full assignment. -/
def State.finalOutcome (s : State) (r : FireRec) : State :=
  let keep := s.partialSlot r
  (assignedSlots s.layout r).foldl
    (fun t p => if keep = some p then t.confirm p r.tag else t.failSlot p r.tag) s

/-- R80: the IDs held, when the classification begins, by the positions that the coil serves. -/
def State.heldBy (s : State) (c : Coil) : List SensorId := (servedBy s.layout c).filterMap (fun p => (s.posAt p).id)

/-- R71 to R73: the classification of a record but for its release. -/
def State.judgeRecord (s : State) (r : FireRec) : State :=
  match fullAssignment s.layout (s.setting .twinMargin) r with
  | some full =>
    let asg := full.filter (fun a => (assignedSlots s.layout r).contains a.1)
    (State.settleSlots r.coil r.tag asg asg s).complete r.coil (s.heldBy r.coil) r.tag
  | none =>
    if r.attempts < s.setting .retryLimit then
      s.offer { coil := r.coil, purpose := r.purpose, attempts := r.attempts, tag := r.tag }
    else (s.finalOutcome r).complete r.coil (s.heldBy r.coil) r.tag

/-- R67, R70, R71: the classification of a record, and its release in the same event. -/
def State.classify (s : State) (r : FireRec) : State :=
  (s.judgeRecord r).dropRecords (fun x => x.coil == r.coil)

/-! ### Sources of requests (R82 to R84) -/

/-- Some in-use position that a coil serves meets a test of its state. -/
def State.servesState (s : State) (c : Coil) (f : BindState → Bool) : Bool :=
  (servedBy s.layout c).any (fun p => f (s.posAt p).state)

/-- R82: RECHECK requests, tag 0, for each available coil that serves a BOUND, SUSPECT or CONFLICT position. -/
def State.offerRechecks (s : State) : State :=
  s.offerEach (coilsInOrder.filter (fun c =>
    s.available c && s.servesState c (fun b => b == .bound || b == .suspect || b == .conflict))) .recheck 0

/-- R82, R83: ATTACH requests, tag 0, for each available trailer coil that serves a DETACHED or UNLEARNED position. -/
def State.offerAttaches (s : State) : State :=
  s.offerEach (coilsInOrder.filter (fun c =>
    s.available c && axleTrailer s.layout (coilAxle c) &&
      s.servesState c (fun b => b == .detached || b == .unlearned))) .attach 0

/-- R84: a COMMAND request for each coil of a list: QUEUED when at least one is offered. -/
def State.offerCommands (s : State) (cs : List Coil) (tag : Byte) : State × CmdOutcome :=
  if cs.isEmpty then (s, .refusedState) else (s.offerEach cs .command tag, .queued)

/-- R84: LOCATE of one position: the coil that serves it, when it is in use, no spare, and the coil is available. -/
def State.commandLocateOne (s : State) (p : Pos) (tag : Byte) : State × CmdOutcome :=
  s.offerCommands ((servingCoil s.layout p).filter s.available).toList tag

/-- R84: LOCATE of FF: every available coil that serves at least one in-use position. -/
def State.commandLocateAll (s : State) (tag : Byte) : State × CmdOutcome :=
  s.offerCommands (coilsInOrder.filter (fun c => s.available c && !(servedBy s.layout c).isEmpty)) tag

/-- R84: RECHECK: every available coil that serves a position holding an ID. -/
def State.commandRecheck (s : State) (tag : Byte) : State × CmdOutcome :=
  s.offerCommands (coilsInOrder.filter (fun c => s.available c && s.servesState c BindState.holdsId)) tag

end Sys2Proof.Machine
end

