-- ==== Sys2Proof/Machine/Intake.lean ====
section
/-! DEFINITION. The intake unit (chapter 2): lanes and their enables (R26), frame counts (R34), LANE QUIET and LANE
RESTORED (R35, R36), the recent telegram list (R37 to R40) and the routing of a settled telegram (R41 to R44). -/

namespace Sys2Proof.Machine

/-- R26: the enables of all lanes follow the table. -/
def State.followEnables (s : State) : State :=
  { s with intake := { s.intake with
      lanes := .tabulate (fun l => (s.intake.lanes.get l).follow (s.enableHigh l) s.now) } }

/-- One lane changed. -/
def State.modLane (s : State) (l : Lane) (f : LaneRec → LaneRec) : State :=
  { s with intake := { s.intake with lanes := s.intake.lanes.set l (f (s.intake.lanes.get l)) } }

/-- R26, R35, R36: a taken lane-enable mask: enables follow; a masked lane's quiet count is held at 0 and its quiet flag
is cleared without a notice. -/
def State.takeLaneMask (s : State) : State :=
  let s := s.followEnables
  { s with intake := { s.intake with lanes := .tabulate (fun l =>
      if s.masked l then { s.intake.lanes.get l with quietCount := 0, quiet := false } else s.intake.lanes.get l) } }

/-! ### Routing (R41 to R44) -/

/-- R41: a settled telegram whose ID a record holds is a late repeat. -/
def lateRepeat (r : PosRec) (t : RecentEntry) (settle : Time) : Bool :=
  match r.sample with
  | some x => x.seq == t.payload.seq && settle ≤ x.accepted + Config.lateRepeat
  | none => false

/-- R44: a TRIGGERED telegram is offered to the trigger unit after the owner of its ID has taken it. -/
def State.offerTriggered (s : State) (t : RecentEntry) : State :=
  if t.payload.kind = .triggered then
    s.offerAnswer t.payload.id (t.payload.echo.getD 0) (t.payload.lf.getD 0) t.firstArrival
  else s

/-- R41 to R44: the routing of a settled telegram. -/
def State.route (s : State) (t : RecentEntry) : State :=
  match s.holder t.payload.id with
  | some p =>
    if lateRepeat (s.posAt p) t s.now then s else (s.applySample p t).offerTriggered t
  | none => (s.receiveCandidate t).offerTriggered t

/-- R39, R40: the head of the recent list settles: it leaves the list and is routed. -/
def State.settleHead (s : State) : State :=
  match s.intake.recent with
  | [] => s
  | t :: rest => { s with intake := { s.intake with recent := rest } }.route t

/-! ### Frames (R27, R34, R36, R38, R39) -/

/-- R34: a bad frame counted. -/
def State.countBad (s : State) (l : Lane) : State :=
  s.modLane l (fun r => { r with bad := satAdd Config.count16 r.bad 1 })

/-- R34, R36: a good frame counted; on a quiet lane the flag is cleared and LANE RESTORED raised. -/
def State.countGood (s : State) (l : Lane) : State :=
  let was := (s.intake.lanes.get l).quiet
  let s := s.modLane l (fun r =>
    { r with good := satAdd Config.count16 r.good 1, quiet := false,
             quietCount := if r.quiet then 0 else r.quietCount })
  if was then s.notify .laneRestored none 0 0 (BitVec.ofNat 32 (laneNum l)) else s

/-- R37: the key of an entry: sensor ID and sequence. -/
def RecentEntry.keyOf (e : RecentEntry) (t : Payload) : Bool := e.payload.id == t.id && e.payload.seq == t.seq

/-- R38: the best level of a lane after a frame. -/
def bestLevel (old : Option (BitVec 8)) (level : BitVec 8) : Option (BitVec 8) :=
  match old with
  | none => some level
  | some v => if v.toNat < level.toNat then some level else some v

/-- R38: a frame merges into an entry. -/
def RecentEntry.merge (e : RecentEntry) (l : Lane) (level : BitVec 8) : RecentEntry :=
  { e with heard := e.heard.set l (bestLevel (e.heard.get l) level) }

/-- R39: the entry that a frame makes. -/
def newEntry (t : Payload) (l : Lane) (level : BitVec 8) (arrival : Time) : RecentEntry :=
  { payload := t, firstArrival := arrival, heard := (Lanes.all none).set l (some level) }

/-- R38: merge into the entry of the same key. -/
def State.mergeFrame (s : State) (t : Payload) (l : Lane) (level : BitVec 8) : State :=
  { s with intake := { s.intake with
      merged := satAdd Config.count16 s.intake.merged 1
      recent := s.intake.recent.map (fun e => if e.keyOf t then e.merge l level else e) } }

/-- R39: a new entry at the tail; with a full list the head settles first. DESIGN CHOICE: entries stand in the order in
which their deliveries are taken, also where the idle gaps end in another order than the frames. Log 39 -/
def State.enterFrame (s : State) (t : Payload) (l : Lane) (level : BitVec 8) (arrival : Time) : State :=
  let s := if s.intake.recent.length < Config.recentPlaces then s else s.settleHead
  { s with intake := { s.intake with recent := s.intake.recent ++ [newEntry t l level arrival] } }

/-- R34, R36, R38, R39: a good frame is counted and merges or makes a new entry. DESIGN CHOICE: on a quiet lane with a
full list LANE RESTORED is raised before the notices of the head that settles early. Log 48 -/
def State.takeGoodFrame (s : State) (t : Payload) (l : Lane) (level : BitVec 8) (arrival : Time) : State :=
  let s := s.countGood l
  if s.intake.recent.any (fun e => e.keyOf t) then s.mergeFrame t l level else s.enterFrame t l level arrival

/-- R27: the frame ended while the lane was ON, and the lane has not gone OFF since. In the millisecond in which the
lane entered ON, the operand says which came first. Log 25 -/
def LaneState.heardOn (st : LaneState) (ended : Time) (onFirst : Bool) : Bool :=
  match st with
  | .off => false
  | .settling _ => false
  | .on t => t < ended || (t == ended && onFirst)

/-- R27: a delivery is discarded, counted bad, or checked as a frame with its level byte. DESIGN CHOICE: a delivery of one
byte, which has no frame, is discarded or counted by the same time `ended` that the command gives. Log 40 -/
def State.takeDelivery (s : State) (l : Lane) (bytes : List Byte) (ended : Time) (onFirst : Bool) : State :=
  if (s.intake.lanes.get l).state.heardOn ended onFirst = false then s
  else if bytes.length < 2 ∨ Config.maxDelivery < bytes.length then s.countBad l
  else
    match decodeFrame bytes.dropLast with
    | none => s.countBad l
    | some t => s.takeGoodFrame t l (bytes.getLastD 0) ended

/-- R26: the end of a lane's SETTLING. -/
def State.endSettling (s : State) (l : Lane) : State :=
  match (s.intake.lanes.get l).state with
  | .settling e => if e ≤ s.now then s.modLane l (fun r => { r with state := .on s.now }) else s
  | .off => s
  | .on _ => s

/-- R40: 120 ms after its first arrival the head of the list settles. DESIGN CHOICE: only the head is tested, so a due
entry behind a later head waits for it. Log 39 -/
def State.settleDue (s : State) : State :=
  match s.intake.recent with
  | [] => s
  | t :: _ => if t.firstArrival + Config.settleSpan ≤ s.now then s.settleHead else s

end Sys2Proof.Machine
end

