-- ==== Sys2Proof/Machine/Formats.lean ====
section
/-! DEFINITION. The words that the part publishes (11.3, 11.4, R137, R138, R186, R187): history cells, status entries,
candidate records, limit sets, the header and the alert detail list. Every bit that no table defines is 0. -/

namespace Sys2Proof.Machine

/-- R186: a time in seconds of the timebase, truncated, as its low 16 bits. -/
def seconds16 (t : Time) : Nat := t / 1000 % 65536

/-- The low `width` bits of a signed number in two's complement. -/
def signedBits (v : Int) (width : Nat) : Nat := (v % (2 ^ width : Int)).toNat

/-- 11.3: the code of a binding state. -/
def BindState.code : BindState → Nat
  | .vacant => 0
  | .unlearned => 1
  | .locating => 2
  | .bound => 3
  | .suspect => 4
  | .conflict => 5
  | .detached => 6

/-- 11.1, 11.3: the code of a telegram kind. -/
def TelegramKind.code : TelegramKind → Nat
  | .periodic => 0
  | .alert => 1
  | .triggered => 2
  | .parked => 3

/-- 11.3: the code of an alert state. -/
def AlertState.code : AlertState → Nat
  | .clear => 0
  | .pending => 1
  | .active => 2
  | .clearing => 3

/-- 11.3: the four bits of an alert record. -/
def AlertRec.nibble (r : AlertRec) : Nat := r.state.code + flag (r.level == .alarm) 2 + flag r.acked 3

/-- 11.3: home lane 0 for none, 1 to 4 for A to D. -/
def homeCode : Option Lane → Nat
  | none => 0
  | some l => laneNum l + 1

/-- 11.3: the code of the hold. -/
def Hold.code : Hold → Nat
  | .released => 0
  | .held => 1
  | .overridden => 2

/-- 11.2: the code of an outcome. -/
def CmdOutcome.code : CmdOutcome → Nat
  | .none => 0
  | .done => 1
  | .queued => 2
  | .refusedRange => 3
  | .refusedState => 4
  | .badWrite => 5

/-! ### Position captures (R136, R137) -/

/-- The stored cold pressure of a record. -/
def PosRec.cold (r : PosRec) : Option Nat := r.sample.bind Sample.cold

/-- The raw pressure code that is published: 0 without a sample. -/
def PosRec.rawCode (r : PosRec) : Nat := match r.sample with | some x => x.code.toNat | none => 0

/-- The temperature code that is published: 255 without a sample. -/
def PosRec.tempCode (r : PosRec) : Nat := match r.sample with | some x => x.temp.code | none => 255

/-- R137: the valid flag of a history cell. -/
def PosRec.cellValid (r : PosRec) : Bool :=
  (r.state == .bound || r.state == .suspect || r.state == .conflict) && r.cold.isSome

/-- R137, 11.4: the alert summary of a history cell. -/
def Alerts.summary (v : Alerts) : Nat :=
  (alertKinds.map (fun k => flag (v.get k).standing k.num)).sum +
    flag (v.anyRec (fun r => r.standing && r.level == .alarm)) 7

/-- R137, 11.4: the two words of a history cell. -/
def cellWords (r : PosRec) (stamp : BitVec 16) : List Word :=
  [packed [field (r.cold.getD 0) 0 12, field r.rawCode 12 10, flag r.cellValid 22, field r.tempCode 24 8],
   packed [field r.epoch.toNat 0 8, field r.alerts.summary 8 8, field stamp.toNat 16 16]]

/-- 11.3: word 04 of a status entry. -/
def entryWord04 (r : PosRec) (lifted : Bool) (limitIndex : Nat) : Word :=
  let x (f : Sample → Nat) : Nat := match r.sample with | some y => f y | none => 0
  packed [field r.state.code 0 3, flag lifted 3, field limitIndex 4 4, field r.epoch.toNat 8 8,
    field (homeCode r.homeLane) 16 3, flag r.recheck 19, flag r.deadline.isSome 20,
    x (fun y => flag y.motion 21), x (fun y => flag y.battery 22), x (fun y => flag y.fault 23),
    x (fun y => field y.kind.code 24 2), x (fun y => field y.seq.toNat 26 4), flag r.sample.isSome 30]

/-- 11.3: seconds from the sample's acceptance to the capture, saturating; 0 without a sample. DESIGN CHOICE: the
difference in ms is truncated to whole seconds. Log 51 -/
def PosRec.ageSeconds (r : PosRec) (now : Time) : Nat :=
  match r.sample with
  | some x => min Config.count16 ((now - x.accepted) / 1000)
  | none => 0

/-- 11.3: the eight words of a status entry. -/
def entryWords (r : PosRec) (lifted : Bool) (limitIndex : Nat) (now : Time) : List Word :=
  [r.id.getD 0,
   entryWord04 r lifted limitIndex,
   packed [field r.rawCode 0 10, field (r.cold.getD 0) 10 12, flag r.cold.isSome 22, field r.tempCode 24 8],
   r.claim.getD 0,
   packed [field (r.interval.getD 0) 0 16, field (signedBits r.drift 8) 16 8, field r.missed 24 8],
   packed [field (signedBits (r.leak.getD 0) 16) 0 16, flag r.leak.isSome 16],
   packed (alertKinds.map (fun k => field (r.alerts.get k).nibble (4 * k.num) 4)),
   packed [field (r.ageSeconds now) 0 16]]

/-- R187: the detail items of a position: one for each ACTIVE or CLEARING record, in the order of the ACK mask. -/
def detailItems (p : Pos) (v : Alerts) : List DetailItem :=
  (alertKinds.filter (fun k => (v.get k).standing)).map (fun k =>
    { position := p, kind := k, level := (v.get k).level, stamp := (v.get k).stamp, value := (v.get k).value })

/-- R187: the two words of a detail item. -/
def DetailItem.words (d : DetailItem) : List Word :=
  [packed [field d.position.val 0 8, field d.kind.num 8 3, flag (d.level == .alarm) 11, field d.stamp.toNat 16 16],
   BitVec.ofInt 32 d.value]

/-! ### Candidate section (R138, 11.3) -/

/-- 11.3: the temperature's two-bit code in a candidate record. -/
def Temp.presence : Temp → Nat
  | .absent => 0
  | .invalid => 1
  | .celsius _ => 2

/-- 11.3: the seven words of a candidate record. -/
def candidateWords (e : Candidate) : List Word :=
  [e.id,
   packed [field (seconds16 e.firstHeard) 0 16, field (seconds16 e.lastHeard) 16 16],
   packed [field e.telegrams 0 8, field e.rolling 8 8, field e.still 16 8, flag e.persistent 24, flag e.stationary 25,
     flag e.claimed 26, flag e.answer.isSome 27, field (match e.answer with | some a => a.coil.val | none => 0) 28 4],
   packed [field e.hits.a 0 8, field e.hits.b 8 8, field e.hits.c 16 8, field e.hits.d 24 8],
   packed [field e.sums.a 0 16, field e.sums.b 16 16],
   packed [field e.sums.c 0 16, field e.sums.d 16 16],
   packed [field e.code.toNat 0 10, field (laneNum e.strongest) 10 2, flag e.motion 12, field e.temp.presence 13 2,
     field e.temp.code 15 8, field (match e.answer with | some a => a.code.toNat | none => 0) 23 4,
     field (match e.answer with | some a => a.lf.toNat | none => 0) 27 4]]

/-! ### Limit mirror (R104, R138) -/

/-- 11.3: the two words of a limit set. -/
def limitWords (l : LimitSet) : List Word :=
  [packed [field l.target.toNat 0 11, field l.lowWarn.toNat 11 11, field (l.hotWarn + 50).toNat 22 8],
   packed [field l.lowAlarm.toNat 0 11, field l.highWarn.toNat 11 11, field (l.hotAlarm + 50).toNat 22 8]]

/-- 11.3: the limit loaded flags, bit s for set s. -/
def loadedFlags (v : Vector LimitSet 16) : Word :=
  packed (v.toList.zipIdx.map (fun x => flag x.1.loaded x.2))

/-! ### Header (R138, 11.3) -/

/-- The header word with two 16-bit halves. -/
def halves (lo hi : Nat) : Word := packed [field lo 0 16, field hi 16 16]

/-- 11.3: the frame counts of a lane in a header. -/
def laneWord (r : LaneRec) : Word := halves r.good r.bad

/-- R138, 11.3: word 0C of the header; the quiet flag of lane A is bit 12. DEDUCED. Log 57 -/
def State.flagsWord (s : State) (p : Publication) : Word :=
  packed ([flag (p.page == .b) 0, flag (s.setting .historyDepth ≤ s.setting .trendSpan) 1, field s.sweep.hold.code 2 2,
    field s.sweep.deferredCount 4 2, flag s.sweep.deferredFlip 6, flag s.buzzer 7, flag s.frozen 8, flag s.snoop.restart 9,
    flag s.notices.lost 10, flag s.control.parkedLost 11] ++
    lanesInOrder.map (fun l => flag (s.intake.lanes.get l).quiet (12 + laneNum l)) ++
    [field s.notices.completed.toNat 16 7, field s.snoop.loaderIndex.toNat 24 4,
     field s.snoop.partialEntry.length 28 3])

/-- R138, 11.3: the sixteen words of the header. `counts` are the lanes as they stood before their counts were set to 0,
`merged` and `stale` the two other counts. DEDUCED: words 34 to 3C are written as 0. Log 19. DEDUCED: the four bytes of word
04 stand from byte 0 up in the order in which 11.3 names them. Log 59 -/
def State.headerWords (s : State) (p : Publication) (counts : Lanes LaneRec) (merged stale : Nat) : List Word :=
  [halves p.number.toNat p.stamp.toNat,
   packed [field p.column 0 8, field (s.setting .historyDepth) 8 8, field (s.setting .trendSpan) 16 8,
     field (s.setting .sweepPeriod) 24 8],
   halves s.sweep.skipped (seconds16 s.now),
   s.flagsWord p,
   packed [field s.snoop.result.count.toNat 0 16, field s.snoop.result.tag.toNat 16 8,
     field s.snoop.result.code.toNat 24 8],
   halves s.path.refused (s.snoop.refusedOffset.getD 0xFFFF),
   packed [field (match s.path.lastRefused with | some a => a.toNat | none => 0) 0 24, flag s.path.lastRefused.isSome 24],
   laneWord counts.a, laneWord counts.b, laneWord counts.c, laneWord counts.d,
   halves merged stale,
   packed [field s.snoop.result.outcome.code 0 4], 0, 0, 0]

/-- R187, 11.3: the alert detail count word: the number of items written, and the overflow flag. -/
def detailCountWord (items : List DetailItem) : Word :=
  packed [field (min items.length Config.detailPlaces) 0 8, flag (Config.detailPlaces < items.length) 8]

/-- Words at rising word offsets from an offset. -/
def writesFrom (offset : Nat) (ws : List Word) : List KeptWrite :=
  ws.zipIdx.map (fun x => { offset := offset + 4 * x.2, data := x.1 })

end Sys2Proof.Machine
end

