-- ==== Sys2Proof/Machine/Publication.lean ====
section
/-! DEFINITION. The sweep unit (chapter 7): the sweep timer (R133, R134), publications (R135 to R138), the flip attempt
and the hold (R139 to R141), the history (R143, R144), trend reads and leak rates (R145 to R147), and what a fall of
host-up does to it (R142). -/

namespace Sys2Proof.Machine

/-! ### Trend reads: discard and result (R146, R147, R173) -/

/-- R147, R173: every pending trend read is discarded: its entries leave the queue, the reads not yet added are dropped,
and a word on the bus completes without a result. A new head has not waited. DEDUCED. Log 20 -/
def State.discardTrend (s : State) : State :=
  { s with
    sweep := { s.sweep with trend := [], keptReads := [] }
    path := { s.path with
      queue := s.path.queue.filter (fun e => e.origin != .trend)
      overdue := s.path.overdue && (match s.path.queue.head? with | some e => e.origin != .trend | none => false)
      bus := s.path.bus.map (fun b => if b.entry.origin = .trend then { b with reported := false } else b) } }

/-- R146: the rate in tenths of a kPa per minute, truncated toward zero and clamped. -/
def leakRate (coldOld coldNew elapsed period : Nat) : Int :=
  max (-32768) (min 32767 ((600 * ((coldOld : Int) - coldNew)).tdiv (elapsed * period)))

/-- R146: the rate of a completed trend read against the position record as it stands, or none when it is
unavailable. -/
def State.rateOf (s : State) (p : Pos) (w0 w1 : Word) : Option Int :=
  let r := s.posAt p
  let elapsed := (s.sweep.count - BitVec.ofNat 16 (bits w1 16 16)).toNat
  match r.cold with
  | none => none
  | some new =>
    if w0.getLsbD 22 && bits w1 0 8 == r.epoch.toNat && r.state.evaluated && elapsed != 0 then
      some (leakRate (bits w0 0 12) new elapsed (s.setting .sweepPeriod))
    else none

/-- R146: both words of a trend read have returned. -/
def State.completeTrend (s : State) (p : Pos) (w0 w1 : Word) : State :=
  match s.rateOf p w0 w1 with
  | none => s
  | some q => (s.modPos p (fun r => { r with leak := some q })).evalLeak p q

/-- R146: a returned word into a pending read. -/
def TrendRead.give (t : TrendRead) (offset : Nat) (w : Word) : TrendRead :=
  if offset = cellOffset t.column t.position then { t with word0 := some w }
  else if offset = cellOffset t.column t.position + 4 then { t with word1 := some w }
  else t

/-- A pending trend read whose words have both returned. -/
def TrendRead.full (t : TrendRead) : Bool := t.word0.isSome && t.word1.isSome

/-- R146: the completion of a trend read's two words, of which one has just returned. -/
def State.finishTrend (s : State) (t : TrendRead) : State :=
  match t.word0, t.word1 with
  | some w0, some w1 => s.completeTrend t.position w0 w1
  | _, _ => s

/-- R146, R167: a word returned for a TREND read; a result for which no read is pending is ignored. -/
def State.trendResult (s : State) (offset : Nat) (w : Word) : State :=
  let given := s.sweep.trend.map (fun t => t.give offset w)
  let done := given.filter TrendRead.full
  let s := { s with sweep := { s.sweep with trend := given.filter (fun t => !t.full) } }
  done.foldl State.finishTrend s

/-- R145, R168, R170: a TREND read offered: answered from a pending WRITE, added, or kept. -/
def State.offerTrend (s : State) (offset : Nat) : State :=
  match pendingWrite s.path.queue offset with
  | some w => s.trendResult offset w
  | none =>
    if s.sweep.keptReads.isEmpty && s.roomForProducer then
      { s with path := { s.path with
          queue := s.path.queue ++ [{ access := .read, offset := offset, origin := .trend }] } }
    else { s with sweep := { s.sweep with keptReads := s.sweep.keptReads ++ [offset] } }

/-- R145: the trend reads set up at a flip attempt. -/
def State.setUpTrend (s : State) : State :=
  let k := s.setting .trendSpan
  let d := s.setting .historyDepth
  if k < d ∧ k + 1 ≤ s.sweep.written then
    let column := columnOfAge s.sweep.head d k
    let live := positionsInOrder.filter (fun p => (s.posAt p).state.evaluated)
    let s := { s with sweep := { s.sweep with
      trend := live.map (fun p => { position := p, column := column, word0 := none, word1 := none }) } }
    (live.flatMap (fun p => [cellOffset column p, cellOffset column p + 4])).foldl State.offerTrend s
  else s

/-! ### History (R144) -/

/-- R144: the history is restarted under the depth in force: the head, the written count, the pending reads, the lag, and
the mark on a publication in progress. -/
def State.restartHistory (s : State) : State :=
  let d := s.setting .historyDepth
  let s := s.discardTrend
  { s with
    sweep := { s.sweep with
      head := d - 1, written := 0
      publication := s.sweep.publication.map (fun p => { p with restarted := true }) }
    snoop := { s.snoop with
      settings := if d ≤ s.setting .viewLag then s.snoop.settings.set SettingWord.viewLag.index.val
          (mergeBytes (s.copy .viewLag) { enables := 3, data := 0 }) SettingWord.viewLag.index.isLt
        else s.snoop.settings } }

/-! ### Publication start (R134, R135) -/

/-- R135: the publication that an expiry starts. -/
def State.startPublication (s : State) : State :=
  let s := s.discardTrend.ageCandidates
  let d := s.setting .historyDepth
  { s with sweep := { s.sweep with
      number := s.sweep.number + 1
      written := if s.sweep.written = d then d - 1 else s.sweep.written
      publication := some { number := s.sweep.number + 1, stamp := s.sweep.count, column := (s.sweep.head + 1) % d,
                            page := s.sweep.front.other, groups := 0, kept := [], items := [], restarted := false } } }

/-- R134: an expiry of the sweep timer. -/
def State.sweepExpires (s : State) : State :=
  let s := { s with sweep := { s.sweep with
    timer := some (s.now + 1000 * s.setting .sweepPeriod), count := s.sweep.count + 1 } }
  match s.sweep.publication with
  | none => s.startPublication
  | some _ => { s with sweep := { s.sweep with skipped := satAdd Config.count16 s.sweep.skipped 1 } }

/-! ### Group captures (R136 to R138, R187) -/

/-- R136: the captured group's writes: the first is added in the capture event, the rest are kept. -/
def State.addGroup (s : State) (p : Publication) (ws : List KeptWrite) : State :=
  let s := { s with sweep := { s.sweep with publication := some { p with groups := p.groups + 1, kept := ws.tail } } }
  match ws with
  | [] => s
  | w :: _ => s.addWrite w.offset w.data .publish

/-- R136, R137, R95, R187: the capture of a position. -/
def State.capturePosition (s : State) (p : Publication) (q : Pos) : State :=
  let r := s.posAt q
  let ws := writesFrom (cellOffset p.column q) (cellWords r p.stamp) ++
    writesFrom (p.page.base + 0x40 + 0x20 * q.val) (entryWords r (s.lifted q) (s.limitIndex q).val s.now)
  (s.modPos q (fun r => { r with missed := 0 })).addGroup { p with items := p.items ++ detailItems q r.alerts } ws

/-- R138, R58: the capture of the candidate section. -/
def State.captureCandidates (s : State) (p : Publication) : State :=
  s.addGroup p (writesFrom (p.page.base + 0x380)
    (BitVec.ofNat 32 s.candidates.length :: s.candidates.flatMap candidateWords))

/-- R138, R104: the capture of the limit mirror. -/
def State.captureLimits (s : State) (p : Publication) : State :=
  s.addGroup p (writesFrom (p.page.base + 0x704)
    (loadedFlags s.eval.limits :: s.eval.limits.toList.flatMap limitWords))

/-- R35: whether a lane becomes quiet at a capture. -/
def LaneRec.turnsQuiet (r : LaneRec) : Bool :=
  r.good == 0 && Config.quietLimit ≤ r.quietCount + 1 && !r.quiet

/-- R34, R35: a lane after a header capture: its quiet count is updated and its counts are set to 0. -/
def LaneRec.captured (r : LaneRec) (masked : Bool) : LaneRec :=
  { r with
    good := 0, bad := 0
    quietCount := if masked then 0 else if r.good = 0 then satAdd Config.quietLimit r.quietCount 1 else 0
    quiet := if masked then r.quiet else r.quiet || r.turnsQuiet }

/-- R35: the LANE QUIET notices of the lanes that a header capture makes quiet. -/
def State.announceQuiet (s : State) (ls : List Lane) : State :=
  ls.foldl (fun t l => t.notify .laneQuiet none 0 0 (BitVec.ofNat 32 (laneNum l))) s

/-- R34, R35, R69, R138, R187: the capture of the header. DESIGN CHOICE: the quiet counts and flags are updated before the
header's values are read, and their notices are raised after the group's first write has been added. Log 19 -/
def State.captureHeader (s : State) (p : Publication) : State :=
  let counts := s.intake.lanes
  let merged := s.intake.merged
  let stale := s.trigger.stale
  let quieted := lanesInOrder.filter (fun l => !(s.masked l) && (counts.get l).turnsQuiet)
  let s := { s with
    intake := { s.intake with
      lanes := .tabulate (fun l => (counts.get l).captured (s.masked l)), merged := 0 }
    trigger := { s.trigger with stale := 0 } }
  (s.addGroup p (writesFrom p.page.base (s.headerWords p counts merged stale) ++
    writesFrom (p.page.base + 0x788)
      (detailCountWord p.items :: (p.items.take Config.detailPlaces).flatMap DetailItem.words))).announceQuiet quieted

/-- R136: the number of groups of a publication. -/
def groupCount : Nat := 29

/-- R136: the next group is captured. -/
def State.captureGroup (s : State) (p : Publication) : State :=
  if h : p.groups < 26 then s.capturePosition p ⟨p.groups, h⟩
  else if p.groups = 26 then s.captureCandidates p
  else if p.groups = 27 then s.captureLimits p
  else if p.groups = 28 then s.captureHeader p
  else s

/-! ### Flip (R139 to R141) -/

/-- R139 step 3: the page flip. -/
def Sweep.flip (w : Sweep) : Sweep :=
  { w with front := w.front.other, published := true, deferredFlip := false, deferredCount := 0 }

/-- R139 step 1: the head moves to the column and the written count rises, unless the history was restarted. -/
def Sweep.advanceHead (w : Sweep) (p : Publication) (depth : Nat) : Sweep :=
  if p.restarted then w else { w with head := p.column, written := min depth (w.written + 1) }

/-- R140: a third deferral is made anyway. -/
def Sweep.mustOverride (w : Sweep) : Bool := w.hold == .held && Config.lastDeferral ≤ w.deferredCount + 1

/-- R139 step 3, R140: the page decision. DESIGN CHOICE: the part's copy of the page hold word stays as last written when
the hold becomes OVERRIDDEN. Log 54 -/
def Sweep.decide (w : Sweep) : Sweep :=
  match w.hold with
  | .released => w.flip
  | .overridden => w.flip
  | .held =>
    if w.mustOverride then { w.flip with hold := .overridden }
    else { w with deferredFlip := true, deferredCount := w.deferredCount + 1 }

/-- R139, R140, R145: the flip attempt that ends a publication. -/
def State.flipAttempt (s : State) (p : Publication) : State :=
  let forced := s.sweep.mustOverride
  let s := { s with sweep := s.sweep.advanceHead p (s.setting .historyDepth) }
  let s := s.mapPos (fun _ r => { r with leak := none })
  let s := { s with sweep := s.sweep.decide }
  let s := if forced then s.notify .holdOverridden none 0 0 (BitVec.ofNat 32 p.number.toNat) else s
  let s := { s with sweep := { s.sweep with publication := none } }
  if p.restarted then s else s.setUpTrend

/-- R139: every write of the publication has been added and has completed. -/
def State.publicationDone (s : State) (p : Publication) : Bool :=
  p.groups == groupCount && p.kept.isEmpty && !(s.path.queue.any (fun e => e.origin == .publish)) &&
    !(match s.path.bus with | some b => b.entry.origin == .publish && b.reported | none => false)

/-- R139: the flip attempt is made once the publication is done. -/
def State.tryFlip (s : State) : State :=
  match s.sweep.publication with
  | none => s
  | some p => if s.publicationDone p then s.flipAttempt p else s

/-- R141: the page hold word is taken. -/
def State.takeHold (s : State) (v : Word) : State :=
  if v = 0 then
    let w := { s.sweep with hold := .released }
    { s with sweep := if w.deferredFlip = true ∧ w.publication = none then w.flip else w }
  else
    { s with sweep := { s.sweep with hold := .held } }

/-! ### Entering and leaving RUN (R133, R142) -/

/-- R133, R161: the sweep timer starts with the full period. -/
def State.startSweeps (s : State) : State :=
  { s with sweep := { s.sweep with timer := some (s.now + 1000 * s.setting .sweepPeriod) } }

/-- R142: host-up falls. DESIGN CHOICE: the part's copy of the page hold word stays as last written when the hold is
RELEASED. Log 54 -/
def State.stopSweeps (s : State) : State :=
  let s := { s with sweep := { s.sweep with
    timer := none, publication := none, published := false, hold := .released, deferredFlip := false,
    deferredCount := 0 } }
  s.restartHistory

end Sys2Proof.Machine
end

