-- ==== Sys2Proof/Machine/Control.lean ====
section
/-! DEFINITION. State control's moves between the operating states (R150 to R162) but for what carries host
transactions: the entry to RUN, the entry to WATCH with its listen cycle, and what a fall of host-up abandons. -/

namespace Sys2Proof.Machine

/-! ### The entry to RUN (R161) -/

/-- R160, R161 step 1: the notice writer takes the whole parked list, in order; the list is then empty. -/
def State.writeParked (s : State) : State :=
  let t := { s with control := { s.control with parked := [], parkedWritten := true } }
  s.control.parked.foldl State.placeNotice t

/-- R35, R161 step 2: every quiet count is set to 0. -/
def State.clearQuietCounts (s : State) : State :=
  { s with intake := { s.intake with lanes := .tabulate (fun l => { s.intake.lanes.get l with quietCount := 0 }) } }

/-- R82, R161 step 5: ATTACH requests if trailer-present is high, then RECHECK requests if ignition is high. -/
def State.offerOnEntry (s : State) : State :=
  let s := if s.control.refTrl then s.offerAttaches else s
  if s.control.refIgn then s.offerRechecks else s

/-- R161: the entry to RUN. -/
def State.enterRun (s : State) : State :=
  let s := { s with control := { s.control with op := .run } }
  ((s.writeParked.followEnables.clearQuietCounts).armAll.startSweeps).offerOnEntry

/-! ### Watch and deep watch (R157) -/

/-- R157: the listen period of an operating state. -/
def OpState.listenPeriod : OpState → Nat
  | .deepWatch => Config.deepPeriod
  | .watch => Config.watchPeriod
  | .reset => Config.watchPeriod
  | .loading => Config.watchPeriod
  | .run => Config.watchPeriod

/-- R157: a listen window starts: its end and the next start are fixed, and the enables follow. -/
def State.startWindow (s : State) : State :=
  { s with control := { s.control with
      windowEnd := some (s.now + Config.listenWindow)
      nextWindow := some (s.now + s.control.op.listenPeriod) } }.followEnables

/-- R157, R159, R185: the entry to WATCH: the deep-watch timer and the listen cycle start, and the attention line is
taken over and released. -/
def State.enterWatch (s : State) : State :=
  { s with
    control := { s.control with
      op := .watch, deepEnd := some (s.now + 60000 * s.setting .deepDelay), wake := false }
    notices := { s.notices with attention := false } }.startWindow

/-- R152, R159, R185: what a rise of host-up ends in WATCH and DEEP WATCH. -/
def State.leaveWatch (s : State) : State :=
  { s with
    control := { s.control with deepEnd := none, nextWindow := none, windowEnd := none, wake := false }
    notices := { s.notices with attention := false } }

/-! ### The fall of host-up (R22, R87, R100, R142, R162, R174, R184) -/

/-- R22, R87, R100: the position table, the trigger unit and the arrival tracker leave RUN. -/
def State.abandonRun (s : State) : State :=
  let s := s.leaveRunPositions.dropRecords (fun _ => true)
  { s with trigger := { s.trigger with queue := [] } }.cancelDeadlines

/-- R174: the outbound queue is emptied; an access on the bus completes without a report. -/
def Path.emptied (p : Path) : Path :=
  { p with queue := [], overdue := false, owed := false, keptLoads := [], bus := p.bus.map (fun b => { b with reported := false }) }

/-- R184: admitted notices that are not completed are lost: the write index returns to the completed index. -/
def NoticeWriter.hostDown (n : NoticeWriter) : NoticeWriter :=
  { n with write := n.completed, lost := n.lost || n.write != n.completed, inRing := [] }

/-- R152, R156, R162: HUP falls in LOADING or RUN, but for a held host transaction. The sweep unit acts in LOADING as in
RUN. DEDUCED. Log 29 -/
def State.hostDown (s : State) : State :=
  let s := if s.control.op = .run then s.abandonRun else s
  let s := s.stopSweeps
  { s with path := s.path.emptied, notices := s.notices.hostDown }.enterWatch

/-! ### RESET (R151) -/

/-- R151: the part enters RESET: every block returns to its reset values. Kept are the timebase, the memory, the levels
of the lines, the fire log and the per-coil starts (R64), and an access on the bus, which completes without a report
(R174). -/
def State.enterReset (s : State) : State :=
  { State.reset with
    now := s.now
    pins := s.pins
    mem := s.mem
    ports := s.ports
    pending := s.pending
    trigger := { Trigger.reset with log := s.trigger.log, lastStart := s.trigger.lastStart }
    path := { Path.reset with
      bus := s.path.bus.map (fun b => { b with reported := false })
      held := s.path.held
      waiting := s.path.waiting } }

/-- R151: a condition for RESET becomes true. -/
def Pins.fail (p : Pins) : ResetCause → Pins
  | .resetLine => { p with resetN := false }
  | .supply => { p with supplyOk := false }

/-- R151: on leaving RESET the references take the levels of the lines. -/
def Control.takeReferences (c : Control) (p : Pins) : Control :=
  { c with refIgn := p.ign, refTrl := p.trl, refHup := p.hup }

end Sys2Proof.Machine
end

