-- ==== Sys2Proof/Machine/Settings.lean ====
section
/-! DEFINITION. The settings snoop (R175 to R181): what an owner does with a setting that it takes, refusals (R176), the
settings load (R154 to R156), the live words (R177), the limit loader (R105, R178, R179) and the commands (R180,
R181). -/

namespace Sys2Proof.Machine

/-! ### Effects of a taken setting -/

/-- The copy of a non-live word replaced. -/
def State.setCopy (s : State) (w : SettingWord) (v : Word) : State :=
  { s with snoop := { s.snoop with settings := s.snoop.settings.set w.index.val v w.index.isLt } }

/-- The copy of a live word replaced. -/
def State.setLive (s : State) (w : LiveWord) (v : Word) : State :=
  { s with snoop := { s.snoop with live := s.snoop.live.set w.index.val v w.index.isLt } }

/-- R123: the tipping settle timer after a change of the body-raised flag: IDLE on a rise, started on a fall unless the
settle time is 0. -/
def settleAfter (raised : Bool) (settleS : Nat) (now : Time) : Option Time :=
  if raised ∨ settleS = 0 then none else some (now + 1000 * settleS)

/-- R123: the body-raised flag has gone from `was` to the flag of the copy. -/
def State.takeBody (s : State) (was : Bool) : State :=
  if was = s.bodyRaised then s
  else { s with eval := { s.eval with settleEnd := settleAfter s.bodyRaised (s.setting .tipSettle) s.now } }

/-- R144: a period or a depth that differs from the one in force restarts the history. -/
def State.restartIfChanged (s : State) (old new : Word) : State :=
  if bits old 0 16 = bits new 0 16 then s else s.restartHistory

/-- What the owner of a word does when it takes a new value in place of the old; the copy already holds it. A word whose
values are read when they are used needs nothing more. -/
def State.applySetting (s : State) (w : SettingWord) (old new : Word) : State :=
  match w with
  | .axleLayout => s.takeLayout old new
  | .laneMask => s.takeLaneMask
  | .vehicle => (s.takeBody (old.getLsbD 8)).clampAll
  | .rollingRange => s.clampAll
  | .parkedRange => s.clampAll
  | .driftLimit => s.dropDrifts
  | .silenceMultiple => s.recomputeDeadlines
  | .ackLimit => s.refreshOutputs false
  | .escAction => s.refreshOutputs false
  | .sweepPeriod => s.restartIfChanged old new
  | .historyDepth => s.restartIfChanged old new
  | .assign0 | .assign1 | .assign2 | .assign3 | .attentionMask | .fireSpeed | .responseWindow | .retryLimit
  | .twinMargin | .rollingThreshold | .persistSpan | .ageLimit | .driftStep | .patm | .persistCount | .clearCount
  | .pressureHyst | .tempHyst | .mismatchLimit | .leakLimits | .tipSettle | .trendSpan | .viewLag | .deepDelay => s

/-- R176: a refused word: the copy stays, the refused-setting offset becomes the word offset, and SETTING REFUSED is
raised with the merged word in its ID field. -/
def State.refuseSetting (s : State) (offset : Nat) (merged : Word) : State :=
  { s with snoop := { s.snoop with refusedOffset := some offset } }.notify .settingRefused none 0 merged
    (BitVec.ofNat 32 offset)

/-- R175, R176: a merged non-live word is taken by its owner, or refused. -/
def State.takeSetting (s : State) (w : SettingWord) (merged : Word) : State :=
  if settingOk w merged (s.setting .historyDepth) then (s.setCopy w merged).applySetting w (s.copy w) merged
  else s.refuseSetting w.offset merged

/-! ### The settings load (R154 to R156) -/

/-- R155: the loaded flag of a word. -/
def State.isLoaded (s : State) (w : SettingWord) : Bool := s.control.loaded.get w.index

/-- R155: the loaded flag of a word is set. -/
def State.markLoaded (s : State) (w : SettingWord) : State :=
  { s with control := { s.control with loaded := s.control.loaded.set w.index.val true w.index.isLt } }

/-- R156: in LOADING, once every flag is set, the settings-loaded flag is set and RUN is entered. -/
def State.completeLoad (s : State) : State :=
  if s.control.op = .loading ∧ settingWords.all s.isLoaded = true then
    { s with control := { s.control with settingsLoaded := true } }.enterRun
  else s

/-- R155: a LOAD read result for a word. DESIGN CHOICE: a refusal that sets the last flag raises its notice in LOADING, so it is
parked, and RUN is entered after that. Log 55 -/
def State.takeLoaded (s : State) (w : SettingWord) (v : Word) : State :=
  if s.isLoaded w then s else ((s.takeSetting w v).markLoaded w).completeLoad

/-- R155: a LOAD read result for a window offset. -/
def State.loadResult (s : State) (offset : Nat) (v : Word) : State :=
  match settingWordAt offset with
  | some w => s.takeLoaded w v
  | none => s

/-- R154, R168, R170: a LOAD read offered: answered from a pending WRITE, added, or kept. -/
def State.offerLoad (s : State) (w : SettingWord) : State :=
  match pendingWrite s.path.queue w.offset with
  | some v => s.takeLoaded w v
  | none =>
    { s with path :=
      if s.path.keptLoads.isEmpty && s.roomForProducer then
        { s.path with queue := s.path.queue ++ [{ access := .read, offset := w.offset, origin := .load }] }
      else { s.path with keptLoads := s.path.keptLoads ++ [w] } }

/-- R154: the part enters LOADING: a READ is offered for each word whose flag is clear, in ascending offset. -/
def State.startLoading (s : State) : State :=
  let s := { s with control := { s.control with op := .loading } }.followEnables
  (settingWords.filter (fun w => !(s.isLoaded w))).foldl State.offerLoad s

/-! ### The limit loader (R105, R178, R179) -/

/-- R104: a value in the allowed values of a pressure or a temperature of a limit set. -/
def allowed (v lo hi : Int) : Bool := lo ≤ v && v ≤ hi

/-- R105: the set that six values make. -/
def limitSetOf (values : List Int) : Option LimitSet :=
  match values with
  | [t, lw, la, hw, ow, oa] =>
    some { target := t, lowWarn := lw, lowAlarm := la, highWarn := hw, hotWarn := ow, hotAlarm := oa, loaded := true }
  | _ => none

/-- R105: the tests of an entry. -/
def LimitSet.valid (l : LimitSet) : Bool :=
  allowed l.target 0 2047 && allowed l.lowWarn 0 2047 && allowed l.lowAlarm 0 2047 && allowed l.highWarn 0 2047 &&
    allowed l.hotWarn (-50) 204 && allowed l.hotAlarm (-50) 204 &&
    l.lowWarn < l.lowAlarm && l.hotWarn < l.hotAlarm && l.lowAlarm ≤ l.target

/-- R105, R179: the six values are delivered: the set is replaced and the index advances, or LIMIT REFUSED is raised.
DESIGN CHOICE: the advance leaves the copy of the loader index word, into which a partial write merges. Log 46 -/
def State.deliverLimits (s : State) (l : LimitSet) : State :=
  if l.valid then
    { s with
      eval := { s.eval with limits := s.eval.limits.set s.snoop.loaderIndex.toNat l s.snoop.loaderIndex.isLt }
      snoop := { s.snoop with loaderIndex := s.snoop.loaderIndex + 1 } }
  else s.notify .limitRefused none 0 0 (BitVec.ofNat 32 s.snoop.loaderIndex.toNat)

/-- R178, R179: a value appended to the partial entry; the sixth completes it. -/
def State.appendLimit (s : State) (v : Int) : State :=
  match limitSetOf (s.snoop.partialEntry ++ [v]) with
  | some l => { s with snoop := { s.snoop with partialEntry := [] } }.deliverLimits l
  | none => { s with snoop := { s.snoop with partialEntry := s.snoop.partialEntry ++ [v] } }

/-- R178: the loader index is set and the partial entry emptied. -/
def State.setLoaderIndex (s : State) (i : BitVec 4) : State :=
  { s with snoop := { s.snoop with loaderIndex := i, partialEntry := [] } }

/-! ### The notice read index (R184, R185) -/

/-- R184: the new read index differs from the old one: the lost flags. -/
def State.clearLost (s : State) : State :=
  { s with
    notices := { s.notices with lost := false }
    control := { s.control with parkedLost := s.control.parkedLost && !(s.control.parkedWritten) } }

/-- R184, R185: the read index is taken; the copy already holds it, and `old` is the index before. The attention line is
re-examined whether or not the index differs. DEDUCED. Log 45 -/
def State.takeReadIndex (s : State) (old : BitVec 7) : State :=
  let s := if s.readIndex = old then s else s.clearLost
  { s with notices := { s.notices with
      attention := if s.readIndex = s.notices.completed then false else s.notices.attention } }

/-! ### Commands (R180, R181) -/

/-- R181: the command result is written. -/
def State.writeResult (s : State) (code tag : Byte) (outcome : CmdOutcome) : State :=
  { s with snoop := { s.snoop with
      result := { tag := tag, code := code, outcome := outcome, count := s.snoop.result.count + 1 }
      restart := false } }

/-- R125: ACK with its checks: `target` is a position, or none for FF. DESIGN CHOICE: the mask is tested before the
position's state. Log 43 -/
def State.commandAck (s : State) (target : Option Pos) (mask : Word) : State × CmdOutcome :=
  if 128 ≤ mask.toNat then (s, .refusedRange)
  else
    match target with
    | none => (positionsInOrder.foldl (State.ackPosition · mask) s, .done)
    | some p => if (s.posAt p).state = .vacant then (s, .refusedState) else (s.ackPosition mask p, .done)

/-- R181: a position index of 0 to 25. -/
def withPosition (b : Byte) (s : State) (f : Pos → State × CmdOutcome) : State × CmdOutcome :=
  match posOfByte b.toNat with
  | some p => f p
  | none => (s, .refusedRange)

/-- R181: a position index of 0 to 25, or FF. -/
def withTarget (b : Byte) (s : State) (f : Option Pos → State × CmdOutcome) : State × CmdOutcome :=
  if b = 0xFF then f none else withPosition b s (fun p => f (some p))

/-- R180, R181: a command is handed to its owner. -/
def State.runCommand (s : State) (code tag position : Byte) : State × CmdOutcome :=
  let argument := s.liveCopy .argument
  match code.toNat with
  | 1 => withPosition position s (fun p => s.commandBind p argument tag)
  | 2 => withPosition position s (fun p => s.commandUnbind p tag)
  | 3 => withPosition position s (fun p => s.commandSwap p argument tag)
  | 4 => withTarget position s (fun t =>
      match t with
      | some p => s.commandLocateOne p tag
      | none => s.commandLocateAll tag)
  | 5 => s.commandRecheck tag
  | 6 => withTarget position s (fun t => s.commandAck t argument)
  | 7 => (s.forgetCandidates, .done)
  | _ => (s, .refusedRange)

/-- R180: a write of the command word that the snoop takes. -/
def State.takeCommand (s : State) (merged : Word) (whole : Bool) : State :=
  let code : Byte := merged.extractLsb' 0 8
  let tag : Byte := merged.extractLsb' 8 8
  if s.control.op ≠ .run then s
  else if whole = false then s.writeResult code tag .badWrite
  else
    let r := s.runCommand code tag (merged.extractLsb' 16 8)
    r.1.writeResult code tag r.2

/-! ### One word of a host write (R155, R175, R177) -/

/-- R177: a merged live word acts. The copy of the page hold word is changed here only. Log 54 -/
def State.takeLive (s : State) (w : LiveWord) (merged : Word) (whole : Bool) : State :=
  match w with
  | .readIndex =>
    if bits merged 0 16 ≤ 127 then (s.setLive .readIndex merged).takeReadIndex s.readIndex
    else s.refuseSetting LiveWord.readIndex.offset merged
  | .pageHold => (s.setLive .pageHold merged).takeHold merged
  | .argument => s.setLive .argument merged
  | .command => (s.setLive .command merged).takeCommand merged whole
  | .loaderIndex =>
    if bits merged 0 16 ≤ 15 then
      (s.setLive .loaderIndex merged).setLoaderIndex (BitVec.ofNat 4 (bits merged 0 16))
    else s.refuseSetting LiveWord.loaderIndex.offset merged
  | .loaderData => (s.setLive .loaderData merged).appendLimit (signedLow merged)

/-- R155: a host write of a non-live word; a full-word write sets the loaded flag, refused or not. DESIGN CHOICE: the notice of
a refusal that sets the last flag is parked before RUN is entered. Log 55 -/
def State.takeHostSetting (s : State) (w : SettingWord) (h : HostWord) : State :=
  let s' := s.takeSetting w (mergeBytes (s.copy w) h)
  if h.enables = 15 then (s'.markLoaded w).completeLoad else s'

/-- R175: the snoop takes writes in LOADING and RUN only. -/
def OpState.takesWrites : OpState → Bool
  | .loading => true
  | .run => true
  | .reset => false
  | .watch => false
  | .deepWatch => false

/-- R175, R177: one word of a settings-page write, at its window offset. -/
def State.takeWord (s : State) (offset : Nat) (h : HostWord) : State :=
  if s.control.op.takesWrites = false ∨ h.enables = 0 then s
  else
    match settingWordAt offset with
    | some w => s.takeHostSetting w h
    | none =>
      match liveWordAt offset with
      | some w => s.takeLive w (mergeBytes (s.liveCopy w) h) (h.enables == 15)
      | none => s

end Sys2Proof.Machine
end

