-- ==== Sys2Proof/Machine/MemoryPath.lean ====
section
/-! DEFINITION. The memory path (chapter 9): the arbiter and the part's accesses (R167, R168, R172), host transactions
with translation, suppression and substitution (R163 to R166, R171), and the hold by HWAIT_N (R172, R174). -/

namespace Sys2Proof.Machine

/-! ### Part accesses (R167, R172) -/

/-- The access that an entry makes on the memory-side port: one whole word. -/
def QEntry.portAccess (e : QEntry) (addr : Nat) : PortAccess :=
  match e.access with
  | .write d => .write addr [{ enables := 15, data := d }]
  | .read => .read addr 15 1

/-- R163, R172: the head of the queue is issued at the base in force. -/
def State.issueHead (s : State) : State :=
  match s.path.queue with
  | [] => s
  | e :: q =>
    { s with
      path := { s.path with queue := q, overdue := false,
                            bus := some { entry := e, addr := s.windowBase + e.offset, reported := true } }
      ports := { s.ports with memory := some (e.portAccess (s.windowBase + e.offset)) } }

/-- R172: the head is issued in a gap: no part access is on the bus and no host transaction waits. -/
def State.issueInGap (s : State) : State :=
  if s.path.bus.isNone ∧ s.path.held.isNone then s.issueHead else s

/-- R172: the head has waited 4 µs. A head that becomes overdue after the start of the held transaction is not owed its
access before it. -/
def State.headWaited (s : State) : State :=
  { s with path := { s.path with
      overdue := s.path.overdue || !(s.path.queue.isEmpty)
      owed := s.path.owed && s.path.overdue } }

/-- R167: the memory performs an access of the part. -/
def QEntry.perform (e : QEntry) (m : List Host.Cell) (addr : Nat) : List Host.Cell :=
  match e.access with
  | .write d => writeWord m addr { enables := 15, data := d }
  | .read => m

/-- R167: the report of a completion to the producer that the origin names. -/
def State.report (s : State) (e : QEntry) (word : Word) : State :=
  match e.origin with
  | .publish => s.tryFlip
  | .notice => { s with notices := s.notices.taken (s.copy .attentionMask) e.offset }
  | .trend => s.trendResult e.offset word
  | .load => s.loadResult e.offset word

/-- R167, R174: the access on the bus completes and is reported, unless it was abandoned. -/
def State.completeAccess (s : State) : State :=
  match s.path.bus with
  | none => s
  | some b =>
    let word := readWord s.mem b.addr
    let t := { s with mem := b.entry.perform s.mem b.addr, path := { s.path with bus := none } }
    if b.reported then t.report b.entry word else t

/-! ### Kept entries (R136, R145, R154, R168) -/

/-- R136, R168, R169: the sweep unit offers the first of its kept writes again. -/
def State.reofferPublish (s : State) (p : Publication) : State :=
  match p.kept with
  | [] => s
  | w :: ws =>
    if s.admits && ((pendingWrite s.path.queue w.offset).isSome || s.roomForProducer) then
      { s with sweep := { s.sweep with publication := some { p with kept := ws } } }.addWrite w.offset w.data .publish
    else s

/-- R145, R168: the sweep unit offers the first of its kept trend reads again. -/
def State.reofferTrend (s : State) : State :=
  match s.sweep.keptReads with
  | [] => s
  | o :: rest =>
    match pendingWrite s.path.queue o with
    | some w => { s with sweep := { s.sweep with keptReads := rest } }.trendResult o w
    | none =>
      if s.roomForProducer then
        { s with
          sweep := { s.sweep with keptReads := rest }
          path := { s.path with queue := s.path.queue ++ [{ access := .read, offset := o, origin := .trend }] } }
      else s

/-- R154, R168: the snoop offers the first of its kept LOAD reads again. -/
def State.reofferLoad (s : State) : State :=
  match s.path.keptLoads with
  | [] => s
  | w :: rest =>
    match pendingWrite s.path.queue w.offset with
    | some v => { s with path := { s.path with keptLoads := rest } }.takeLoaded w v
    | none =>
      if s.roomForProducer then
        { s with path := { s.path with
            keptLoads := rest
            queue := s.path.queue ++ [{ access := .read, offset := w.offset, origin := .load }] } }
      else s

/-- R168: whether the sweep unit keeps writes of a publication. -/
def Sweep.keepsWrites (w : Sweep) : Bool :=
  match w.publication with
  | some p => !(p.kept.isEmpty)
  | none => false

/-- R168: a producer that is keeping an entry offers it again; two never wait together. -/
def State.reofferKept (s : State) : State :=
  if s.sweep.keepsWrites then
    (match s.sweep.publication with
     | some p => s.reofferPublish p
     | none => s)
  else if s.sweep.keptReads.isEmpty = false then s.reofferTrend
  else s.reofferLoad

/-- R136: the next group is captured when every write before it has been added and more than 8 entries are free. -/
def State.captureNext (s : State) : State :=
  match s.sweep.publication with
  | none => s
  | some p => if p.kept.isEmpty && s.roomForProducer && p.groups < groupCount then s.captureGroup p else s

/-! ### Host transactions (R163 to R166, R171) -/

/-- R163, R164, R165: a host transaction decoded and translated with the state as it stands, or none for a read that is
answered with zeros. -/
def State.resolve (s : State) : HostTxn → Option BusTxn
  | .read addr enables words =>
    match s.windowOffset addr with
    | none => some (.read addr none enables words)
    | some o => (s.readTarget o).map (fun t => .read (s.windowBase + t) (some t) enables words)
  | .write addr words =>
    match s.windowOffset addr with
    | none => some (.write .passed addr 0 words)
    | some o => some (.write (regionOf o).writeClass addr o words)

/-- R163, R171: one word that a host read returns: the pending data for its final offset, else what memory holds. DESIGN
CHOICE: all four bytes of the word, whatever byte enables the host presented. Log 44 -/
def State.hostWordAt (s : State) (addr : Nat) (offset : Option Nat) (i : Nat) : Word :=
  ((offset.bind (fun o => pendingWrite s.path.queue (o + 4 * i)))).getD (readWord s.mem (addr + 4 * i))

/-- R165, R171: a host read carried to memory. -/
def State.carryRead (s : State) (addr : Nat) (offset : Option Nat) (enables : BitVec 4) (words : Nat) : State :=
  { s with ports := { hostData := (List.range words).map (s.hostWordAt addr offset),
                      memory := some (.read addr enables words) } }

/-- R163: a host write carried to memory unchanged. -/
def State.carryWrite (s : State) (addr : Nat) (words : List HostWord) : State :=
  { s with
    mem := writeWords s.mem addr words
    ports := { s.ports with memory := some (.write addr words) } }

/-- R166: a refused word recorded. -/
def Path.refuse (p : Path) (addr : Nat) (w : HostWord) : Path :=
  if w.enables = 0 then p
  else { p with refused := satAdd Config.count16 p.refused 1, lastRefused := some (BitVec.ofNat 24 addr) }

/-- R166: the words of a suppressed write recorded, in address order. -/
def Path.refuseAll (p : Path) (addr : Nat) : List HostWord → Path
  | [] => p
  | w :: ws => (p.refuse addr w).refuseAll (addr + 4) ws

/-- R166: a suppressed write: carried with all byte enables off, and recorded. -/
def State.carrySuppressed (s : State) (addr : Nat) (words : List HostWord) : State :=
  { s with
    path := s.path.refuseAll addr words
    ports := { s.ports with memory := some (.write addr (words.map (fun w => { w with enables := 0 }))) } }

/-- R175: the snoop takes the words of a settings-page write, in address order. -/
def State.takeWords (s : State) (offset : Nat) : List HostWord → State
  | [] => s
  | w :: ws => (s.takeWord offset w).takeWords (offset + 4) ws

/-- R163 to R166: a host transaction is carried. -/
def State.carry (s : State) : BusTxn → State
  | .read addr offset enables words => s.carryRead addr offset enables words
  | .write .passed addr _ words => s.carryWrite addr words
  | .write .settings addr offset words => (s.carryWrite addr words).takeWords offset words
  | .write .suppressed addr _ words => s.carrySuppressed addr words

/-- R172, R174: HWAIT_N can be asserted. -/
def State.canHold (s : State) : Bool := s.control.refHup && s.control.op != .reset

/-- R172: a host transaction that starts: held behind an access on the bus, held behind an overdue head that is issued, or
carried at once. With an access on the bus and an overdue head behind it, both go first: the host is held for one part
access together with the one already on the bus. DEDUCED. Log 30 -/
def State.begin (s : State) (t : BusTxn) : State :=
  if s.canHold && s.path.bus.isSome then
    { s with path := { s.path with held := some t, owed := s.path.overdue } }
  else if s.canHold && s.path.overdue && !(s.path.queue.isEmpty) then
    { s with path := { s.path with held := some t } }.issueHead
  else s.carry t

/-- The number of words that a transaction returns. -/
def HostTxn.wordCount : HostTxn → Nat
  | .read _ _ words => words
  | .write _ _ => 0

/-- R165, R172: the host presents a transaction: answered with zeros without the memory, or begun. One presented while
another is held waits for it. -/
def State.present (s : State) (t : HostTxn) : State :=
  if s.path.held.isSome then { s with path := { s.path with waiting := s.path.waiting ++ [t] } }
  else
    match s.resolve t with
    | some b => s.begin b
    | none => { s with ports := { s.ports with hostData := List.replicate t.wordCount 0 } }

/-- R172: the held transaction waits for an overdue head that still stands. -/
def State.owesHead (s : State) : Bool :=
  s.canHold && s.path.owed && s.path.overdue && !(s.path.queue.isEmpty)

/-- R172, R174: the held host transaction is carried, then those that waited behind it are presented; an overdue head that
it is held for goes first. -/
def State.release (s : State) : State :=
  match s.path.held with
  | none => s
  | some t =>
    if s.owesHead then { s with path := { s.path with owed := false } }.issueHead
    else
      s.path.waiting.foldl State.present
        ({ s with path := { s.path with held := none, owed := false, waiting := [] } }.carry t)

/-- R163: a host write at an address. -/
def State.hostWrites (s : State) (addr : Nat) (d : HostData) : State :=
  s.present (.write (writeStart d addr) (hostWords d))

/-- A host write of one word of the settings page, at its window offset. -/
def State.writesSetting (s : State) (offset : Nat) (w : HostWord) : State :=
  s.present (.write (s.windowBase + offset) [w])

/-- A host write of the command word (11.2). -/
def State.writesCommand (s : State) (code : Nat) (tag position upper : Byte) (enables : BitVec 4) : State :=
  s.writesSetting LiveWord.command.offset { enables := enables, data := commandWord code tag position upper }

end Sys2Proof.Machine
end

