-- ==== Sys2Proof/Machine/Commands.lean ====
section
/-! DEFINITION. The host writes of the command word: BIND, UNBIND, SWAP, LOCATE, RECHECK, ACK, FORGET_CANDIDATES and a code
that names no command (R180, R181). The codes are those of 11.2. -/

namespace Sys2Proof.Machine

/-- R10, R11: code 1, BIND. -/
def execBind (dt : Nat) (tag position upper : Byte) (enables : BitVec 4) (s : State) :
    Host.Outcome State Fault Refusal :=
  let s := s.elapse dt
  .next (s.writesCommand 1 tag position upper enables)

/-- R12: code 2, UNBIND. -/
def execUnbind (dt : Nat) (tag position upper : Byte) (enables : BitVec 4) (s : State) :
    Host.Outcome State Fault Refusal :=
  let s := s.elapse dt
  .next (s.writesCommand 2 tag position upper enables)

/-- R13: code 3, SWAP. -/
def execSwap (dt : Nat) (tag position upper : Byte) (enables : BitVec 4) (s : State) :
    Host.Outcome State Fault Refusal :=
  let s := s.elapse dt
  .next (s.writesCommand 3 tag position upper enables)

/-- R84: code 4, LOCATE. -/
def execLocate (dt : Nat) (tag position upper : Byte) (enables : BitVec 4) (s : State) :
    Host.Outcome State Fault Refusal :=
  let s := s.elapse dt
  .next (s.writesCommand 4 tag position upper enables)

/-- R84: code 5, RECHECK. -/
def execRecheck (dt : Nat) (tag position upper : Byte) (enables : BitVec 4) (s : State) :
    Host.Outcome State Fault Refusal :=
  let s := s.elapse dt
  .next (s.writesCommand 5 tag position upper enables)

/-- R125: code 6, ACK. -/
def execAck (dt : Nat) (tag position upper : Byte) (enables : BitVec 4) (s : State) :
    Host.Outcome State Fault Refusal :=
  let s := s.elapse dt
  .next (s.writesCommand 6 tag position upper enables)

/-- R57: code 7, FORGET CANDIDATES. -/
def execForgetCandidates (dt : Nat) (tag position upper : Byte) (enables : BitVec 4) (s : State) :
    Host.Outcome State Fault Refusal :=
  let s := s.elapse dt
  .next (s.writesCommand 7 tag position upper enables)

/-- R180: a code that names no command. -/
def execCommandCodeNamesNoCommand (dt : Nat) (code tag position upper : Byte) (enables : BitVec 4) (s : State) :
    Host.Outcome State Fault Refusal :=
  let s := s.elapse dt
  .next (s.writesCommand code.toNat tag position upper enables)

end Sys2Proof.Machine
end

