-- ==== Sys2Proof/Machine/Firing.lean ====
section
/-! DEFINITION. The commands of the trigger unit: FIRE_START, BURST_END, RECOVERING_END, OPEN_PERIOD_END,
CLASSIFICATION (R60, R65, R67, R71). One whose time has not come changes only the time. Log 2 -/

namespace Sys2Proof.Machine

/-- R60: a coil takes a state. -/
def State.setCoil (s : State) (c : Coil) (x : CoilState) : State :=
  { s with trigger := { s.trigger with coils := s.trigger.coils.set c.val x c.isLt } }

/-- R65: the scheduler's test. -/
def execFireStart (dt : Nat) (s : State) : Host.Outcome State Fault Refusal :=
  let s := s.elapse dt
  .next s.schedule

/-- R60: the burst of 10 ms ends and the coil enters RECOVERING for 250 ms. -/
def execBurstEnd (dt : Nat) (coil : Coil) (s : State) : Host.Outcome State Fault Refusal :=
  let s := s.elapse dt
  match s.trigger.coils.get coil with
  | .firing start _ =>
    if start + Config.burst ≤ s.now then
      .next (s.setCoil coil (.recovering (start + Config.burst + Config.recovering)))
    else .next s
  | .idle => .next s
  | .recovering _ => .next s

/-- R60: RECOVERING ends and the coil returns to IDLE. -/
def execRecoveringEnd (dt : Nat) (coil : Coil) (s : State) : Host.Outcome State Fault Refusal :=
  let s := s.elapse dt
  match s.trigger.coils.get coil with
  | .recovering ends => if ends ≤ s.now then .next (s.setCoil coil .idle) else .next s
  | .idle => .next s
  | .firing _ _ => .next s

/-- R67: the OPEN period of the coil's record ends. -/
def execOpenPeriodEnd (dt : Nat) (coil : Coil) (s : State) : Host.Outcome State Fault Refusal :=
  let s := s.elapse dt
  .next { s with trigger := { s.trigger with records := s.trigger.records.map (fun r =>
      if r.coil = coil ∧ r.openEnds ≤ s.now then { r with closing := true } else r) } }

/-- R71: the CLOSING period of the coil's record ends and the record is classified. -/
def execClassification (dt : Nat) (coil : Coil) (s : State) : Host.Outcome State Fault Refusal :=
  let s := s.elapse dt
  match s.trigger.records.find? (fun r => r.coil == coil && r.closing && decide (r.closingEnds ≤ s.now)) with
  | some r => .next (s.classify r)
  | none => .next s

end Sys2Proof.Machine
end

