-- ==== Sys2Proof/Machine/HostAccess.lean ====
section
/-! DEFINITION. The host transactions that carry no setting: HOST_READ, HOST_WRITE, SUPPRESSED_WRITE (R163 to R166). The
region decoder decides what an address means, whichever row names the write. Log 26 -/

namespace Sys2Proof.Machine

/-- R165: a host read. DESIGN CHOICE: the four words of a burst read share one set of byte enables. Log 56 -/
def execHostRead (dt : Nat) (addr : BitVec 24) (enables : BitVec 4) (shape : ReadShape) (s : State) :
    Host.Outcome State Fault Refusal :=
  let s := s.elapse dt
  .next (s.present (.read (readStart shape addr.toNat) enables (readCount shape)))

/-- R163: a host write outside the window or into a scratch region. -/
def execHostWrite (dt : Nat) (addr : BitVec 24) (data : HostData) (s : State) : Host.Outcome State Fault Refusal :=
  let s := s.elapse dt
  .next (s.hostWrites addr.toNat data)

/-- R166: a host write into a region that the part owns. -/
def execSuppressedWrite (dt : Nat) (addr : BitVec 24) (data : HostData) (s : State) :
    Host.Outcome State Fault Refusal :=
  let s := s.elapse dt
  .next (s.hostWrites addr.toNat data)

end Sys2Proof.Machine
end

