-- ==== Sys2Proof/Machine/Lines.lean ====
section
/-! DEFINITION. The commands of the lines and the supply: RESET_ENTRY, RESET_EXIT, HOST_UP_RISE, HOST_UP_FALL,
IGNITION_RISE, IGNITION_FALL, TRAILER_PRESENT_RISE, TRAILER_PRESENT_FALL, WINDOW_BASE_CHANGE (R151 to R153, R163). An
edge of a line that already stands at the new level does not take place. Log 2 -/

namespace Sys2Proof.Machine

/-- R151: RESET_N goes low or VDD falls below 1.62 V. In RESET already, only the line changes. A held host transaction is
released (R174). -/
def execResetEntry (dt : Nat) (cause : ResetCause) (s : State) : Host.Outcome State Fault Refusal :=
  let s := s.elapse dt
  let s := { s with pins := s.pins.fail cause }
  .next (if s.control.op = .reset then s else s.enterReset.release)

/-- R151: RESET_N is high and VDD is good again: LOADING when HUP is high, WATCH when it is low. -/
def execResetExit (dt : Nat) (s : State) : Host.Outcome State Fault Refusal :=
  let s := s.elapse dt
  if s.control.op = .reset then
    let s := { s with
      pins := { s.pins with resetN := true, supplyOk := true }
      control := s.control.takeReferences s.pins }
    .next (if s.control.refHup then s.startLoading else s.enterWatch)
  else .next s

/-- R152: HUP has risen in WATCH or DEEP WATCH. -/
def State.hostUp (s : State) : State :=
  let s := s.leaveWatch
  if s.control.settingsLoaded then s.enterRun else s.startLoading

/-- R152: HUP rises. -/
def execHostUpRise (dt : Nat) (s : State) : Host.Outcome State Fault Refusal :=
  let s := s.elapse dt
  if s.pins.hup then .next s
  else
    let s := { s with pins := { s.pins with hup := true } }
    if s.control.op = .reset then .next s
    else
      let s := { s with control := { s.control with refHup := true } }
      .next (if s.control.op = .watch ∨ s.control.op = .deepWatch then s.hostUp else s)

/-- R152, R162, R174: HUP falls. A held host transaction is released and carried at once. -/
def execHostUpFall (dt : Nat) (s : State) : Host.Outcome State Fault Refusal :=
  let s := s.elapse dt
  if s.pins.hup = false then .next s
  else
    let s := { s with pins := { s.pins with hup := false } }
    if s.control.op = .reset then .next s
    else
      let s := { s with control := { s.control with refHup := false } }
      .next (if s.control.op = .loading ∨ s.control.op = .run then s.hostDown.release else s)

/-- R82, R153: IGN rises; in RUN it queues RECHECK requests. -/
def execIgnitionRise (dt : Nat) (s : State) : Host.Outcome State Fault Refusal :=
  let s := s.elapse dt
  if s.pins.ign then .next s
  else
    let s := { s with pins := { s.pins with ign := true } }
    if s.control.op = .reset then .next s
    else
      let s := { s with control := { s.control with refIgn := true } }
      .next (if s.control.op = .run then s.offerRechecks else s)

/-- R153: IGN falls. -/
def execIgnitionFall (dt : Nat) (s : State) : Host.Outcome State Fault Refusal :=
  let s := s.elapse dt
  let s := { s with pins := { s.pins with ign := false } }
  .next (if s.control.op = .reset then s else { s with control := { s.control with refIgn := false } })

/-- R83, R153: TRL rises; in RUN it queues ATTACH requests. -/
def execTrailerPresentRise (dt : Nat) (s : State) : Host.Outcome State Fault Refusal :=
  let s := s.elapse dt
  if s.pins.trl then .next s
  else
    let s := { s with pins := { s.pins with trl := true } }
    if s.control.op = .reset then .next s
    else
      let s := { s with control := { s.control with refTrl := true } }
      .next (if s.control.op = .run then s.offerAttaches else s)

/-- R18, R85, R153: TRL falls: the trailer coils are torn down and the trailer positions detached. -/
def execTrailerPresentFall (dt : Nat) (s : State) : Host.Outcome State Fault Refusal :=
  let s := s.elapse dt
  if s.pins.trl = false then .next s
  else
    let s := { s with pins := { s.pins with trl := false } }
    if s.control.op = .reset then .next s
    else
      let s := { s with control := { s.control with refTrl := false } }
      .next (s.tearDown (fun c => axleTrailer s.layout (coilAxle c))).detachTrailer

/-- R163: the straps change, in any operating state. -/
def execWindowBaseChange (dt : Nat) (straps : BitVec 4) (s : State) : Host.Outcome State Fault Refusal :=
  let s := s.elapse dt
  .next { s with pins := { s.pins with straps := straps } }

end Sys2Proof.Machine
end

