-- ==== Sys2Proof/Machine/Outbound.lean ====
section
/-! DEFINITION. The commands of the publication and of the outbound queue: GROUP_CAPTURE, KEPT_ENTRY_REOFFER, HEAD_ISSUE,
HEAD_OVERDUE, PART_ACCESS_COMPLETE (R136, R167, R168, R172). -/

namespace Sys2Proof.Machine

/-- R136: the next publication group is captured and its first write added. -/
def execGroupCapture (dt : Nat) (s : State) : Host.Outcome State Fault Refusal :=
  let s := s.elapse dt
  .next s.captureNext

/-- R168: a producer that is keeping an entry offers it again. Log 23 -/
def execKeptEntryReoffer (dt : Nat) (s : State) : Host.Outcome State Fault Refusal :=
  let s := s.elapse dt
  .next s.reofferKept

/-- R172: the head of the queue is issued in a gap between host transactions. -/
def execHeadIssue (dt : Nat) (s : State) : Host.Outcome State Fault Refusal :=
  let s := s.elapse dt
  .next s.issueInGap

/-- R172: the head has waited 4 µs. Log 28 -/
def execHeadOverdue (dt : Nat) (s : State) : Host.Outcome State Fault Refusal :=
  let s := s.elapse dt
  .next s.headWaited

/-- R167, R172: the memory completes the part access on the bus, the completion is reported, and a host transaction held
for it is released. Log 22 -/
def execPartAccessComplete (dt : Nat) (s : State) : Host.Outcome State Fault Refusal :=
  let s := s.elapse dt
  .next (if s.path.bus.isSome then s.completeAccess.release else s)

end Sys2Proof.Machine
end

