-- ==== Sys2Proof/Machine/Reception.lean ====
section
/-! DEFINITION. The commands of reception: LANE_SETTLING_END, DELIVERY, ENTRY_SETTLE (R26, R27, R40). -/

namespace Sys2Proof.Machine

/-- R26: a SETTLING lane whose 20 ms have passed enters ON. -/
def execLaneSettlingEnd (dt : Nat) (lane : Lane) (s : State) : Host.Outcome State Fault Refusal :=
  let s := s.elapse dt
  .next (s.endSettling lane)

/-- R27: the idle gap of a delivery ends; its last frame byte ended `sinceEnd` ms ago. -/
def execDelivery (dt : Nat) (lane : Lane) (bytes : List Byte) (sinceEnd : Nat) (onFirst : Bool) (s : State) :
    Host.Outcome State Fault Refusal :=
  let s := s.elapse dt
  .next (s.takeDelivery lane bytes (s.now - sinceEnd) onFirst)

/-- R40: the head of the recent telegram list settles, 120 ms after its first arrival. -/
def execEntrySettle (dt : Nat) (s : State) : Host.Outcome State Fault Refusal :=
  let s := s.elapse dt
  .next s.settleDue

end Sys2Proof.Machine
end

