-- ==== Sys2Proof/Machine/SettingsWrites.lean ====
section
/-! DEFINITION. The host writes of settings and of live words that carry no command: SETTINGS_WRITE, AXLE_LAYOUT,
VEHICLE_STATE, NOTICE_READ_INDEX, PAGE_HOLD, LIMIT_LOADER_INDEX, LIMIT_LOADER_DATA (R175 to R179). -/

namespace Sys2Proof.Machine

/-- R175: a host write into the settings page. -/
def execSettingsWrite (dt : Nat) (offset : BitVec 10) (data : HostData) (s : State) :
    Host.Outcome State Fault Refusal :=
  let s := s.elapse dt
  .next (s.hostWrites (s.windowBase + offset.toNat) data)

/-- R3: a host write of the axle layout word. -/
def execAxleLayout (dt : Nat) (w : HostWord) (s : State) : Host.Outcome State Fault Refusal :=
  let s := s.elapse dt
  .next (s.writesSetting SettingWord.axleLayout.offset w)

/-- R123: a host write of the vehicle state word. -/
def execVehicleState (dt : Nat) (w : HostWord) (s : State) : Host.Outcome State Fault Refusal :=
  let s := s.elapse dt
  .next (s.writesSetting SettingWord.vehicle.offset w)

/-- R184: a host write of the notice read index word. -/
def execNoticeReadIndex (dt : Nat) (w : HostWord) (s : State) : Host.Outcome State Fault Refusal :=
  let s := s.elapse dt
  .next (s.writesSetting LiveWord.readIndex.offset w)

/-- R141: a host write of the page hold word. -/
def execPageHold (dt : Nat) (w : HostWord) (s : State) : Host.Outcome State Fault Refusal :=
  let s := s.elapse dt
  .next (s.writesSetting LiveWord.pageHold.offset w)

/-- R178: a host write of the limit loader index word. -/
def execLimitLoaderIndex (dt : Nat) (w : HostWord) (s : State) : Host.Outcome State Fault Refusal :=
  let s := s.elapse dt
  .next (s.writesSetting LiveWord.loaderIndex.offset w)

/-- R179: a host write of the limit loader data word. -/
def execLimitLoaderData (dt : Nat) (w : HostWord) (s : State) : Host.Outcome State Fault Refusal :=
  let s := s.elapse dt
  .next (s.writesSetting LiveWord.loaderData.offset w)

end Sys2Proof.Machine
end

