-- ==== Sys2Proof/Machine/Timers.lean ====
section
/-! DEFINITION. The commands of the part's timers: SILENCE_DEADLINE_EXPIRY, TIPPING_SETTLE_END, ESCALATION_EXPIRY,
LAMP_FLASH_HALF_PERIOD, SWEEP_EXPIRY, LISTEN_WINDOW_START, LISTEN_WINDOW_END, DEEP_WATCH_EXPIRY (R97, R123, R127, R129,
R134, R157). One whose time has not come changes only the time. Log 2 -/

namespace Sys2Proof.Machine

/-- R97: the silence deadline of a position expires. -/
def execSilenceDeadlineExpiry (dt : Nat) (position : Pos) (s : State) : Host.Outcome State Fault Refusal :=
  let s := s.elapse dt
  .next (s.expireIfReached position)

/-- A time that is present has come. -/
def due (t : Option Time) (now : Time) : Bool :=
  match t with
  | some x => x ≤ now
  | none => false

/-- R123: the tipping settle timer reaches its end. -/
def execTippingSettleEnd (dt : Nat) (s : State) : Host.Outcome State Fault Refusal :=
  let s := s.elapse dt
  if due s.eval.settleEnd s.now then .next { s with eval := { s.eval with settleEnd := none } } else .next s

/-- R129: a RUNNING timer that has reached its expiry becomes EXPIRED. -/
def Escalation.expireAt (e : Escalation) (now : Time) : Escalation :=
  match e with
  | .idle => .idle
  | .running x => if x ≤ now then .expired else .running x
  | .expired => .expired

/-- R129: the escalation timer expires; the buzzer is driven with it. -/
def execEscalationExpiry (dt : Nat) (s : State) : Host.Outcome State Fault Refusal :=
  let s := s.elapse dt
  .next { s with eval := { s.eval with escalation := s.eval.escalation.expireAt s.now } }

/-- R127: a half-period of FLASH that has ended. -/
def Lamp.toggleAt (l : Lamp) (now : Time) : Lamp :=
  match l with
  | .off => .off
  | .on => .on
  | .flash driven ends => if ends ≤ now then .flash (!driven) (now + Config.halfPeriod) else .flash driven ends

/-- R127: the lamp output toggles at the end of a half-period of FLASH. -/
def execLampFlashHalfPeriod (dt : Nat) (s : State) : Host.Outcome State Fault Refusal :=
  let s := s.elapse dt
  .next { s with eval := { s.eval with lamp := s.eval.lamp.toggleAt s.now } }

/-- R134: the sweep timer expires. -/
def execSweepExpiry (dt : Nat) (s : State) : Host.Outcome State Fault Refusal :=
  let s := s.elapse dt
  if due s.sweep.timer s.now then .next s.sweepExpires else .next s

/-- R157: the states in which the lanes listen in windows. -/
def OpState.watching : OpState → Bool
  | .watch => true
  | .deepWatch => true
  | .reset => false
  | .loading => false
  | .run => false

/-- R157: a listen window starts. -/
def execListenWindowStart (dt : Nat) (s : State) : Host.Outcome State Fault Refusal :=
  let s := s.elapse dt
  if s.control.op.watching && due s.control.nextWindow s.now then .next s.startWindow else .next s

/-- R157: a listen window ends and the lane enables fall. -/
def execListenWindowEnd (dt : Nat) (s : State) : Host.Outcome State Fault Refusal :=
  let s := s.elapse dt
  if due s.control.windowEnd s.now then
    .next { s with control := { s.control with windowEnd := none } }.followEnables
  else .next s

/-- R157: the deep-watch timer expires; a window in progress and the next start stay. -/
def execDeepWatchExpiry (dt : Nat) (s : State) : Host.Outcome State Fault Refusal :=
  let s := s.elapse dt
  if s.control.op = .watch ∧ due s.control.deepEnd s.now = true then
    .next { s with control := { s.control with op := .deepWatch, deepEnd := none } }
  else .next s

end Sys2Proof.Machine
end

