-- ==== Sys2Proof/Machine/Dispatch.lean ====
section
/-! DEFINITION. The dispatch: one arm per command, each one direct call of its meaning. -/

namespace Sys2Proof.Machine

/-- The effect of a command on everything but the queue of commands. -/
def exec (i : Instr) (s : State) : Host.Outcome State Fault Refusal :=
  match i with
  | .resetEntry dt cause => Sys2Proof.Machine.execResetEntry dt cause s
  | .resetExit dt => Sys2Proof.Machine.execResetExit dt s
  | .hostUpRise dt => Sys2Proof.Machine.execHostUpRise dt s
  | .hostUpFall dt => Sys2Proof.Machine.execHostUpFall dt s
  | .ignitionRise dt => Sys2Proof.Machine.execIgnitionRise dt s
  | .ignitionFall dt => Sys2Proof.Machine.execIgnitionFall dt s
  | .trailerPresentRise dt => Sys2Proof.Machine.execTrailerPresentRise dt s
  | .trailerPresentFall dt => Sys2Proof.Machine.execTrailerPresentFall dt s
  | .windowBaseChange dt straps => Sys2Proof.Machine.execWindowBaseChange dt straps s
  | .laneSettlingEnd dt lane => Sys2Proof.Machine.execLaneSettlingEnd dt lane s
  | .delivery dt lane bytes sinceEnd onFirst => Sys2Proof.Machine.execDelivery dt lane bytes sinceEnd onFirst s
  | .entrySettle dt => Sys2Proof.Machine.execEntrySettle dt s
  | .fireStart dt => Sys2Proof.Machine.execFireStart dt s
  | .burstEnd dt coil => Sys2Proof.Machine.execBurstEnd dt coil s
  | .recoveringEnd dt coil => Sys2Proof.Machine.execRecoveringEnd dt coil s
  | .openPeriodEnd dt coil => Sys2Proof.Machine.execOpenPeriodEnd dt coil s
  | .classification dt coil => Sys2Proof.Machine.execClassification dt coil s
  | .silenceDeadlineExpiry dt position => Sys2Proof.Machine.execSilenceDeadlineExpiry dt position s
  | .tippingSettleEnd dt => Sys2Proof.Machine.execTippingSettleEnd dt s
  | .escalationExpiry dt => Sys2Proof.Machine.execEscalationExpiry dt s
  | .lampFlashHalfPeriod dt => Sys2Proof.Machine.execLampFlashHalfPeriod dt s
  | .sweepExpiry dt => Sys2Proof.Machine.execSweepExpiry dt s
  | .groupCapture dt => Sys2Proof.Machine.execGroupCapture dt s
  | .keptEntryReoffer dt => Sys2Proof.Machine.execKeptEntryReoffer dt s
  | .headIssue dt => Sys2Proof.Machine.execHeadIssue dt s
  | .headOverdue dt => Sys2Proof.Machine.execHeadOverdue dt s
  | .partAccessComplete dt => Sys2Proof.Machine.execPartAccessComplete dt s
  | .listenWindowStart dt => Sys2Proof.Machine.execListenWindowStart dt s
  | .listenWindowEnd dt => Sys2Proof.Machine.execListenWindowEnd dt s
  | .deepWatchExpiry dt => Sys2Proof.Machine.execDeepWatchExpiry dt s
  | .hostRead dt addr enables shape => Sys2Proof.Machine.execHostRead dt addr enables shape s
  | .hostWrite dt addr data => Sys2Proof.Machine.execHostWrite dt addr data s
  | .suppressedWrite dt addr data => Sys2Proof.Machine.execSuppressedWrite dt addr data s
  | .settingsWrite dt offset data => Sys2Proof.Machine.execSettingsWrite dt offset data s
  | .axleLayout dt w => Sys2Proof.Machine.execAxleLayout dt w s
  | .vehicleState dt w => Sys2Proof.Machine.execVehicleState dt w s
  | .noticeReadIndex dt w => Sys2Proof.Machine.execNoticeReadIndex dt w s
  | .pageHold dt w => Sys2Proof.Machine.execPageHold dt w s
  | .limitLoaderIndex dt w => Sys2Proof.Machine.execLimitLoaderIndex dt w s
  | .limitLoaderData dt w => Sys2Proof.Machine.execLimitLoaderData dt w s
  | .bind dt tag position upper enables => Sys2Proof.Machine.execBind dt tag position upper enables s
  | .unbind dt tag position upper enables => Sys2Proof.Machine.execUnbind dt tag position upper enables s
  | .swap dt tag position upper enables => Sys2Proof.Machine.execSwap dt tag position upper enables s
  | .locate dt tag position upper enables => Sys2Proof.Machine.execLocate dt tag position upper enables s
  | .recheck dt tag position upper enables => Sys2Proof.Machine.execRecheck dt tag position upper enables s
  | .ack dt tag position upper enables => Sys2Proof.Machine.execAck dt tag position upper enables s
  | .forgetCandidates dt tag position upper enables => Sys2Proof.Machine.execForgetCandidates dt tag position upper enables s
  | .commandCodeNamesNoCommand dt code tag position upper enables => Sys2Proof.Machine.execCommandCodeNamesNoCommand dt code tag position upper enables s

end Sys2Proof.Machine
end

