-- ==== Sys2Proof/Machine/Step.lean ====
section
/-! DEFINITION. One step: the command at the front of the queue runs; on an empty queue the timebase ticks. -/

namespace Sys2Proof.Machine

/-- One step of the part. The command at the front of the queue runs on the state with the queue's rest. On an empty queue
one ms passes and nothing else happens. DESIGN CHOICE. Log 1 -/
def step (s : State) : Host.Outcome State Fault Refusal :=
  match s.pending with
  | [] => .next (s.elapse 1)
  | c :: rest => exec c { s with pending := rest }

/-- The state with the command that a word spells put at the front of its queue; unchanged where it spells none. -/
def State.withFetchWord (s : State) (nbits w : Nat) : State :=
  match decodeTableWord nbits w with
  | some c => { s with pending := c :: s.pending }
  | none => s

end Sys2Proof.Machine
end

