-- ==== Sys2Proof/Safety.lean ====
section
/-! DEFINITION. What a safe step and a safe run of the part are: no step stops, whatever commands wait. -/

namespace Sys2Proof

/-- A step answers a next state. -/
def stepSafe (s : Machine.State) : Prop := ∃ t, Machine.step s = .next t

/-- A state that is reached from another by steps. -/
inductive Reaches : Machine.State → Machine.State → Prop where
  | refl (s : Machine.State) : Reaches s s
  | step {s t u : Machine.State} (h : Reaches s t) (e : Machine.step t = .next u) : Reaches s u

/-- A run that never stops. -/
def runSafe (s : Machine.State) : Prop := ∀ t, Reaches s t → stepSafe t

/-- A property of states that every step keeps. -/
def stepKeeps (inv : Machine.State → Prop) : Prop := ∀ s t, inv s → Machine.step s = .next t → inv t

end Sys2Proof
end

