-- ==== Sys2Proof/Certificates/Slice0/Obligations.lean ====
section
/-! DEFINITION. The statements for the provers. Each says what a command or the machine does; `s.elapse dt` is the state
after the time that the command carries has passed. A clause that rests on a choice of the model names its log entry. -/

namespace Sys2Proof.Claim

open Sys2Proof.Machine

/-- No host transaction is held, and the memory is free for one that starts (R172). -/
def memoryFree (s : State) : Prop := s.path.held = none ∧ s.path.bus = none ∧ s.path.overdue = false

/-- The part is in RUN and a host write of a settings word is carried at once. -/
def takesCommands (s : State) : Prop := s.control.op = .run ∧ memoryFree s

/-- The part is in LOADING or RUN, so that the settings snoop takes a host write (R175), which is carried at once. -/
def takesLiveWords (s : State) : Prop := (s.control.op = .loading ∨ s.control.op = .run) ∧ memoryFree s

/-- A whole word on the bus: all four byte enables on. -/
def whole (v : Word) : HostWord := { enables := 15, data := v }

/-- The two states have the same bindings: state, ID and epoch of every position. -/
def sameBindings (s t : State) : Prop :=
  ∀ p : Pos, (t.posAt p).state = (s.posAt p).state ∧ (t.posAt p).id = (s.posAt p).id ∧
    (t.posAt p).epoch = (s.posAt p).epoch

/-- Every byte outside `count` bytes from an address reads as before. -/
def memoryOutside (s t : State) (start count : Nat) : Prop :=
  ∀ a, (a < start ∨ start + count ≤ a) → memRead t.mem a = memRead s.mem a

/-- What no vehicle-side command changes: the memory, the lines, the ports, the sweep unit, the settings, the limit table,
the operating state and the queue of commands. -/
def hostSideSame (s t : State) : Prop :=
  t.mem = s.mem ∧ t.pins = s.pins ∧ t.ports = s.ports ∧ t.sweep = s.sweep ∧ t.snoop = s.snoop ∧
    t.eval.limits = s.eval.limits ∧ t.control.op = s.control.op ∧ t.path.bus = s.path.bus ∧ t.path.held = s.path.held ∧
    t.path.refused = s.path.refused ∧ t.pending = s.pending

/-- The command result after a command (R181). -/
def resultIs (s t : State) (code tag : Byte) (outcome : CmdOutcome) : Prop :=
  t.snoop.result = { tag := tag, code := code, outcome := outcome, count := s.snoop.result.count + 1 } ∧
    t.snoop.restart = false

/-- The word of a host write at a settings offset stands in memory with the bytes that the enables turn on. -/
def wordWritten (s t : State) (offset : Nat) (w : HostWord) : Prop :=
  t.mem = writeWord s.mem (s.windowBase + offset) w

/-- A record of a position emptied of its sensor (R8). -/
def sensorFieldsEmpty (r : PosRec) : Prop :=
  r.sample = none ∧ r.lastTemp = none ∧ r.homeLane = none ∧ r.leak = none ∧ r.claim = none

/-- R169: at most 48 entries, and no two WRITE entries for one word offset. -/
def queueOk (q : List QEntry) : Prop :=
  q.length ≤ 48 ∧
    (q.filter (fun e => match e.access with | .write _ => true | .read => false)).Pairwise (fun e f => e.offset ≠ f.offset)

/-- R5, R6, R20: a record holds an ID exactly in its four states, is VACANT exactly when it is out of use, shares its ID with
no other record, and has a move claim only while it holds an ID. -/
def bindingsOk (s : State) : Prop :=
  ∀ p : Pos,
    ((s.posAt p).id.isSome = (s.posAt p).state.holdsId) ∧
    ((s.posAt p).state = .vacant ↔ inUse s.layout p = false) ∧
    ((s.posAt p).claim.isSome = true → (s.posAt p).state.holdsId = true) ∧
    ∀ q : Pos, (s.posAt p).id.isSome = true → (s.posAt p).id = (s.posAt q).id → p = q

/-- R127: the lamp is OFF exactly when no record is ACTIVE or CLEARING, and FLASH exactly when an unacknowledged ALARM is. -/
def lampOk (s : State) : Prop :=
  (s.eval.lamp = .off ↔ ∀ (p : Pos) (k : AlertKind), (s.alertAt p k).standing = false) ∧
    ((∃ d e, s.eval.lamp = .flash d e) ↔ ∃ (p : Pos) (k : AlertKind), (s.alertAt p k).unackedAlarm = true)

/-- R128: the escalation timer is IDLE exactly when it is disarmed or no unacknowledged ALARM stands. -/
def escalationOk (s : State) : Prop :=
  s.eval.escalation = .idle ↔
    (s.escalationArmed = false ∨ ∀ (p : Pos) (k : AlertKind), (s.alertAt p k).unackedAlarm = false)

/-- R63, R66: at most four fire records, of different coils and with different trigger codes, none of them 0. -/
def recordsOk (s : State) : Prop :=
  s.trigger.records.length ≤ 4 ∧ (s.trigger.records.map FireRec.coil).Nodup ∧
    (s.trigger.records.map FireRec.code).Nodup ∧ ∀ r ∈ s.trigger.records, r.code ≠ 0

/-- R45, R49: at most 32 candidates, one per ID, CLAIMED exactly while a record holds the ID. -/
def candidatesOk (s : State) : Prop :=
  s.candidates.length ≤ 32 ∧ (s.candidates.map Candidate.id).Nodup ∧
    ∀ e ∈ s.candidates, e.claimed = s.answered e.id

/-- The words whose owner reads them when they are used: taking one changes nothing but the copy. -/
def plainWords : List SettingWord :=
  [.assign0, .assign1, .assign2, .assign3, .attentionMask, .fireSpeed, .responseWindow, .retryLimit, .twinMargin,
    .rollingThreshold, .persistSpan, .ageLimit, .driftStep, .patm, .persistCount, .clearCount, .pressureHyst,
    .tempHyst, .mismatchLimit, .leakLimits, .tipSettle, .trendSpan, .viewLag, .deepDelay]

/-- R71: a record of the fire records whose CLOSING period has ended `dt` ms from now. -/
def closesBy (s : State) (dt : Nat) (r : FireRec) : Prop :=
  recordsOk s ∧ r ∈ s.trigger.records ∧ r.closing = true ∧ r.start + 10 + r.window + 120 ≤ s.now + dt

/-- The records but for the one of a coil. -/
def recordsWithout (s : State) (c : Coil) : List FireRec := s.trigger.records.filter (fun x => x.coil != c)

/-- R37, R62, R160, R178: the recent telegram list holds at most 24 entries, one per sensor ID and sequence, the trigger queue
one request per coil, the parked list at most 16 notices, and the partial entry at most 5 values. -/
def listsOk (s : State) : Prop :=
  s.intake.recent.length ≤ 24 ∧ (s.intake.recent.map (fun e => (e.payload.id, e.payload.seq))).Nodup ∧
    (s.trigger.queue.map Request.coil).Nodup ∧ s.control.parked.length ≤ 16 ∧
    s.snoop.partialEntry.length ≤ 5

/-- The eight commands that a host write of the command word can be, each with the code that it writes. -/
def commandWrites (dt : Nat) (code tag pos upper : Byte) (en : BitVec 4) : List (Nat × Instr) :=
  [(1, .bind dt tag pos upper en), (2, .unbind dt tag pos upper en), (3, .swap dt tag pos upper en),
    (4, .locate dt tag pos upper en), (5, .recheck dt tag pos upper en), (6, .ack dt tag pos upper en),
    (7, .forgetCandidates dt tag pos upper en), (code.toNat, .commandCodeNamesNoCommand dt code tag pos upper en)]

/-- A new location request, with tag 0 (R61). -/
def newRequest (purpose : Purpose) (c : Coil) : Request := { coil := c, purpose := purpose, attempts := 0, tag := 0 }

/-- Some in-use position that the coil serves is in one of the states (R59). -/
def servesOneOf (s : State) (c : Coil) (states : List BindState) : Bool :=
  (servedBy s.layout c).any (fun p => states.contains (s.posAt p).state)

/-- A request for the coil stands in the trigger queue (R62). -/
def isQueued (s : State) (c : Coil) : Bool := s.trigger.queue.any (fun r => r.coil == c)

/-- R82: the coils for which a rise of ignition offers a RECHECK. -/
def recheckCoils (s : State) : List Coil :=
  coilsInOrder.filter (fun c => s.available c && servesOneOf s c [.bound, .suspect, .conflict])

/-- R83: the coils for which a rise of trailer-present offers an ATTACH: with the line high, a trailer coil that exists is
available. -/
def attachCoils (s : State) : List Coil :=
  coilsInOrder.filter (fun c => coilExists s.layout c && axleTrailer s.layout (coilAxle c) &&
    servesOneOf s c [.detached, .unlearned])

/-- A candidate but for what the trigger unit writes in it (R49). -/
def unanswered (c : Candidate) : Candidate := { c with answer := none, claimed := false }

/-- The sample of a settled telegram (R23): every field of the telegram, the absolute pressure of its code, the cold pressure
at the compensation temperature, and the times of arrival and acceptance. -/
def sampleShows (r : PosRec) (e : RecentEntry) (patm : Nat) (now : Time) (x : Sample) : Prop :=
  x.code = e.payload.code ∧ x.seq = e.payload.seq ∧ x.kind = e.payload.kind ∧ x.motion = e.payload.motion ∧
    x.battery = e.payload.battery ∧ x.fault = e.payload.fault ∧ x.temp = e.payload.temp ∧ x.arrival = e.firstArrival ∧
    x.accepted = now ∧
    x.absolute = (if e.payload.code = 0 then .invalid else if e.payload.code = 1023 then .overRange
      else .kPa (2 * e.payload.code.toNat)) ∧
    x.cold = coldPressure e.payload.code ((lastTempAfter r.lastTemp e.payload.temp).getD 20) patm

/-- R71: the record of a SINGLE axle's coil, whose CLOSING period ends, holds the one answer `x` and no out-of-care mark. -/
def singleAnswer (s : State) (dt : Nat) (r : FireRec) (x : Response) : Prop :=
  closesBy s dt r ∧ axleKind s.layout (coilAxle r.coil) = .single ∧ r.responses = [x] ∧ r.overfull = false ∧
    r.outOfCare = []

/-- R71: the record of a TWIN axle's coil, whose CLOSING period ends, holds two answers that differ by the twin margin at
least, `x` at the higher level, and no out-of-care mark. -/
def twinAnswer (s : State) (dt : Nat) (r : FireRec) (x y : Response) : Prop :=
  closesBy s dt r ∧ axleKind s.layout (coilAxle r.coil) = .twin ∧ (r.responses = [x, y] ∨ r.responses = [y, x]) ∧
    r.overfull = false ∧ r.outOfCare = [] ∧ x.id ≠ y.id ∧ y.lf.toNat < x.lf.toNat ∧
    y.lf.toNat + s.setting .twinMargin ≤ x.lf.toNat

/-- R73: on a TWIN axle the assigned slot holds the only responder. -/
def answersAlone (s : State) (r : FireRec) (p : Pos) : Prop :=
  axleKind s.layout (coilAxle r.coil) = .twin ∧ p ∈ assignedSlots s.layout r ∧ r.responses.length = 1 ∧
    ∃ x ∈ r.responses, (s.posAt p).id = some x.id

/-- R80: the position's move claim names an ID that a position served by the coil holds. -/
def waitsOn (s : State) (c : Coil) (p : Pos) : Prop := ∃ x ∈ s.heldBy c, (s.posAt p).claim = some x

/-- R7, R8: a record that has taken an ID: BOUND, its epoch one greater, the sensor's fields empty. -/
def tookId (r u : PosRec) (id : SensorId) : Prop :=
  u.state = .bound ∧ u.id = some id ∧ u.epoch = r.epoch + 1 ∧ sensorFieldsEmpty u

/-- R7, R8: a record that has given up its ID: UNLEARNED, its epoch one greater, the fields empty. -/
def gaveUpId (r u : PosRec) : Prop :=
  u.state = .unlearned ∧ u.id = none ∧ u.epoch = r.epoch + 1 ∧ sensorFieldsEmpty u ∧ u.interval = none ∧
    u.deadline = none

/-- The position keeps its state, ID, epoch and sample. -/
def keepsBinding (s t : State) (p : Pos) : Prop :=
  (t.posAt p).state = (s.posAt p).state ∧ (t.posAt p).id = (s.posAt p).id ∧ (t.posAt p).epoch = (s.posAt p).epoch ∧
    (t.posAt p).sample = (s.posAt p).sample

/-- R80: the claim of the position has become CONFLICT: the claim is gone and every alert record is CLEAR. -/
def claimSettled (s t : State) (p : Pos) : Prop :=
  (t.posAt p).state = .conflict ∧ (t.posAt p).claim = none ∧ (t.posAt p).id = (s.posAt p).id ∧
    (t.posAt p).epoch = (s.posAt p).epoch ∧ ∀ k, (t.alertAt p k).state = .clear

/-- R136, R168: the next group can be captured: every write of the group before it has been added, more than 8 entries are
free, and no write for the group's first offset is pending. -/
def captureReady (s : State) (q : Publication) (offset : Nat) : Prop :=
  s.control.refHup = true ∧ s.control.op ≠ .reset ∧ s.sweep.publication = some q ∧ q.kept = [] ∧
    s.path.queue.length ≤ 39 ∧ pendingWrite s.path.queue offset = none

/-- R136: the publication after a capture: one group more, its page, column, number and stamp fixed. -/
def groupTaken (q r : Publication) : Prop :=
  r.groups = q.groups + 1 ∧ r.number = q.number ∧ r.stamp = q.stamp ∧ r.page = q.page ∧ r.column = q.column

/-- R137, 11.4: the two words of a position's history cell. -/
def cellShows (r : PosRec) (stamp : BitVec 16) (w0 w1 : Word) : Prop :=
  bits w0 0 12 = (r.cold.getD 0) % 4096 ∧ bits w0 12 10 = r.rawCode ∧
    bits w0 22 1 = ((r.state == .bound || r.state == .suspect || r.state == .conflict) && r.cold.isSome).toNat ∧
    bits w0 23 1 = 0 ∧ bits w0 24 8 = r.tempCode % 256 ∧
    bits w1 0 8 = r.epoch.toNat ∧ (∀ k : AlertKind, bits w1 (8 + k.num) 1 = (r.alerts.get k).standing.toNat) ∧
    bits w1 15 1 = (alertKinds.any (fun k => (r.alerts.get k).standing && (r.alerts.get k).level == .alarm)).toNat ∧
    bits w1 16 16 = stamp.toNat

/-- R186, 11.3: the eight words of a position's status entry at a capture; the age is truncated to seconds (log 51). -/
def entryShows (s : State) (p : Pos) (now : Time) (w : Nat → Word) : Prop :=
  let r := s.posAt p
  w 0 = r.id.getD 0 ∧
    bits (w 1) 0 3 = r.state.code ∧ bits (w 1) 3 1 = (s.lifted p).toNat ∧ bits (w 1) 4 4 = (s.limitIndex p).val ∧
    bits (w 1) 8 8 = r.epoch.toNat ∧ bits (w 1) 16 3 = ((r.homeLane.map laneNum).map (· + 1)).getD 0 ∧
    bits (w 1) 19 1 = r.recheck.toNat ∧ bits (w 1) 20 1 = r.deadline.isSome.toNat ∧
    bits (w 1) 21 1 = ((r.sample.map Sample.motion).getD false).toNat ∧
    bits (w 1) 22 1 = ((r.sample.map Sample.battery).getD false).toNat ∧
    bits (w 1) 23 1 = ((r.sample.map Sample.fault).getD false).toNat ∧
    bits (w 1) 24 2 = (r.sample.map (fun x => x.kind.code)).getD 0 ∧
    bits (w 1) 26 4 = (r.sample.map (fun x => x.seq.toNat)).getD 0 ∧ bits (w 1) 30 2 = r.sample.isSome.toNat ∧
    bits (w 2) 0 10 = r.rawCode ∧ bits (w 2) 10 12 = (r.cold.getD 0) % 4096 ∧ bits (w 2) 22 2 = r.cold.isSome.toNat ∧
    bits (w 2) 24 8 = r.tempCode % 256 ∧
    w 3 = r.claim.getD 0 ∧
    bits (w 4) 0 16 = (r.interval.getD 0) % 65536 ∧ bits (w 4) 16 8 = (BitVec.ofInt 8 r.drift).toNat ∧
    bits (w 4) 24 8 = r.missed % 256 ∧
    bits (w 5) 0 16 = (BitVec.ofInt 16 (r.leak.getD 0)).toNat ∧ bits (w 5) 16 16 = r.leak.isSome.toNat ∧
    (∀ k : AlertKind, bits (w 6) (4 * k.num) 2 = (r.alerts.get k).state.code ∧
      bits (w 6) (4 * k.num + 2) 1 = ((r.alerts.get k).level == .alarm).toNat ∧
      bits (w 6) (4 * k.num + 3) 1 = (r.alerts.get k).acked.toNat) ∧ bits (w 6) 28 4 = 0 ∧
    (w 7).toNat = (r.sample.map (fun x => min 65535 ((now - x.accepted) / 1000))).getD 0

/-- R46, R50, 11.3: the seven words of a candidate record. -/
def candidateShows (e : Candidate) (w : Nat → Word) : Prop :=
  w 0 = e.id ∧ bits (w 1) 0 16 = e.firstHeard / 1000 % 65536 ∧ bits (w 1) 16 16 = e.lastHeard / 1000 % 65536 ∧
    bits (w 2) 0 8 = e.telegrams % 256 ∧ bits (w 2) 8 8 = e.rolling % 256 ∧ bits (w 2) 16 8 = e.still % 256 ∧
    bits (w 2) 24 1 = e.persistent.toNat ∧ bits (w 2) 25 1 = e.stationary.toNat ∧ bits (w 2) 26 1 = e.claimed.toNat ∧
    bits (w 2) 27 1 = e.answer.isSome.toNat ∧ bits (w 2) 28 4 = (e.answer.map (fun a => a.coil.val)).getD 0 ∧
    (∀ l : Lane, bits (w 3) (8 * laneNum l) 8 = e.hits.get l % 256) ∧
    bits (w 4) 0 16 = e.sums.a % 65536 ∧ bits (w 4) 16 16 = e.sums.b % 65536 ∧
    bits (w 5) 0 16 = e.sums.c % 65536 ∧ bits (w 5) 16 16 = e.sums.d % 65536 ∧
    bits (w 6) 0 10 = e.code.toNat ∧ bits (w 6) 10 2 = laneNum e.strongest ∧ bits (w 6) 12 1 = e.motion.toNat ∧
    bits (w 6) 13 2 = (match e.temp with | .absent => 0 | .invalid => 1 | .celsius _ => 2) ∧
    bits (w 6) 15 8 = (match e.temp with | .absent => 255 | .invalid => 255 | .celsius v => (v + 50).toNat % 256) ∧
    bits (w 6) 23 4 = (e.answer.map (fun a => a.code.toNat)).getD 0 ∧
    bits (w 6) 27 5 = (e.answer.map (fun a => a.lf.toNat)).getD 0

/-- R104, 11.3: the two words of a limit set. -/
def limitShows (l : LimitSet) (w0 w1 : Word) : Prop :=
  bits w0 0 11 = l.target.toNat % 2048 ∧ bits w0 11 11 = l.lowWarn.toNat % 2048 ∧
    bits w0 22 10 = (l.hotWarn + 50).toNat % 256 ∧ bits w1 0 11 = l.lowAlarm.toNat % 2048 ∧
    bits w1 11 11 = l.highWarn.toNat % 2048 ∧ bits w1 22 10 = (l.hotAlarm + 50).toNat % 256

/-- R138, R186, 11.3: the sixteen words of the header at its capture; the quiet flags are those after it (log 19), and the
bytes of word 04 stand from byte 0 up (log 59). -/
def headerShows (s : State) (q : Publication) (now : Time) (quiet : Lanes Bool) (w : Nat → Word) : Prop :=
  bits (w 0) 0 16 = q.number.toNat ∧ bits (w 0) 16 16 = q.stamp.toNat ∧
    bits (w 1) 0 8 = q.column % 256 ∧ bits (w 1) 8 8 = s.setting .historyDepth % 256 ∧
    bits (w 1) 16 8 = s.setting .trendSpan % 256 ∧ bits (w 1) 24 8 = s.setting .sweepPeriod % 256 ∧
    bits (w 2) 0 16 = s.sweep.skipped % 65536 ∧ bits (w 2) 16 16 = now / 1000 % 65536 ∧
    bits (w 3) 0 1 = (q.page == .b).toNat ∧
    bits (w 3) 1 1 = (decide (s.setting .historyDepth ≤ s.setting .trendSpan)).toNat ∧
    bits (w 3) 2 2 = (match s.sweep.hold with | .released => 0 | .held => 1 | .overridden => 2) ∧
    bits (w 3) 4 2 = s.sweep.deferredCount % 4 ∧ bits (w 3) 6 1 = s.sweep.deferredFlip.toNat ∧
    bits (w 3) 7 1 = s.buzzer.toNat ∧ bits (w 3) 8 1 = s.frozen.toNat ∧ bits (w 3) 9 1 = s.snoop.restart.toNat ∧
    bits (w 3) 10 1 = s.notices.lost.toNat ∧ bits (w 3) 11 1 = s.control.parkedLost.toNat ∧
    (∀ l : Lane, bits (w 3) (12 + laneNum l) 1 = (quiet.get l).toNat) ∧
    bits (w 3) 16 8 = s.notices.completed.toNat ∧ bits (w 3) 24 4 = s.snoop.loaderIndex.toNat ∧
    bits (w 3) 28 4 = s.snoop.partialEntry.length % 8 ∧
    bits (w 4) 0 16 = s.snoop.result.count.toNat ∧ bits (w 4) 16 8 = s.snoop.result.tag.toNat ∧
    bits (w 4) 24 8 = s.snoop.result.code.toNat ∧
    bits (w 5) 0 16 = s.path.refused % 65536 ∧ bits (w 5) 16 16 = (s.snoop.refusedOffset.getD 0xFFFF) % 65536 ∧
    bits (w 6) 0 24 = (s.path.lastRefused.map BitVec.toNat).getD 0 ∧ bits (w 6) 24 8 = s.path.lastRefused.isSome.toNat ∧
    (∀ l : Lane, bits (w (7 + laneNum l)) 0 16 = (s.intake.lanes.get l).good % 65536 ∧
      bits (w (7 + laneNum l)) 16 16 = (s.intake.lanes.get l).bad % 65536) ∧
    bits (w 11) 0 16 = s.intake.merged % 65536 ∧ bits (w 11) 16 16 = s.trigger.stale % 65536 ∧
    (w 12).toNat = s.snoop.result.outcome.code ∧ w 13 = 0 ∧ w 14 = 0 ∧ w 15 = 0

/-- R35: a lane after a header capture. -/
def laneCaptured (r : LaneRec) (masked : Bool) : LaneRec :=
  { r with
    good := 0, bad := 0
    quietCount := if masked then 0 else if r.good = 0 then min 3 (r.quietCount + 1) else 0
    quiet := if masked = false ∧ r.good = 0 ∧ 3 ≤ r.quietCount + 1 then true else r.quiet }

/-- The host transaction that a command presents to the memory path, with the time it carries (R163). -/
def presented (c : Instr) (s : State) : Option (Nat × HostTxn) :=
  let setting (dt offset : Nat) (w : HostWord) : Option (Nat × HostTxn) := some (dt, .write (s.windowBase + offset) [w])
  let command (dt code : Nat) (tag pos upper : Byte) (en : BitVec 4) : Option (Nat × HostTxn) :=
    setting dt 0x10C { enables := en, data := commandWord code tag pos upper }
  match c with
  | .hostRead dt addr en shape => some (dt, .read (readStart shape addr.toNat) en (readCount shape))
  | .hostWrite dt addr d => some (dt, .write (writeStart d addr.toNat) (hostWords d))
  | .suppressedWrite dt addr d => some (dt, .write (writeStart d addr.toNat) (hostWords d))
  | .settingsWrite dt offset d => some (dt, .write (s.windowBase + writeStart d offset.toNat) (hostWords d))
  | .axleLayout dt w => setting dt 0 w
  | .vehicleState dt w => setting dt 0x1C w
  | .noticeReadIndex dt w => setting dt 0x100 w
  | .pageHold dt w => setting dt 0x104 w
  | .limitLoaderIndex dt w => setting dt 0x110 w
  | .limitLoaderData dt w => setting dt 0x114 w
  | .bind dt tag pos upper en => command dt 1 tag pos upper en
  | .unbind dt tag pos upper en => command dt 2 tag pos upper en
  | .swap dt tag pos upper en => command dt 3 tag pos upper en
  | .locate dt tag pos upper en => command dt 4 tag pos upper en
  | .recheck dt tag pos upper en => command dt 5 tag pos upper en
  | .ack dt tag pos upper en => command dt 6 tag pos upper en
  | .forgetCandidates dt tag pos upper en => command dt 7 tag pos upper en
  | .commandCodeNamesNoCommand dt code tag pos upper en => command dt code.toNat tag pos upper en
  | _ => none

/-- The memory completes a PUBLISH write of the publication whose last group has been added, with nothing else queued, no
host transaction held and no trend read pending (R139). -/
def flipDue (s : State) (b : Issued) (d : Word) (q : Publication) : Prop :=
  s.path.bus = some b ∧ b.entry.access = .write d ∧ b.entry.origin = .publish ∧ b.reported = true ∧ s.path.held = none ∧
    s.path.queue = [] ∧ s.sweep.publication = some q ∧ q.groups = 29 ∧ q.kept = [] ∧ s.sweep.trend = [] ∧
    s.sweep.keptReads = [] ∧ s.control.refHup = true ∧ s.control.op = .run

/-- R139: what every flip attempt does beside the page decision: the head and the written count, unless the history was
restarted, the leak rates, and the end of the publication. -/
def attemptMade (s t : State) (b : Issued) (d : Word) (q : Publication) : Prop :=
  t.sweep.publication = none ∧ t.sweep.head = (if q.restarted then s.sweep.head else q.column) ∧
    t.sweep.written = (if q.restarted then s.sweep.written else min (s.setting .historyDepth) (s.sweep.written + 1)) ∧
    (∀ p, (t.posAt p).leak = none) ∧ sameBindings s t ∧ t.sweep.count = s.sweep.count ∧
    t.sweep.timer = s.sweep.timer ∧ t.mem = writeWord s.mem b.addr { enables := 15, data := d } ∧ t.pending = s.pending

/-- R145: the trend reads that a flip attempt sets up: with K below D and at least K + 1 columns written, one for each BOUND
or SUSPECT position in index order, at the column K before the head; none otherwise, nor after a restart. -/
def trendSetUp (s t : State) (q : Publication) (reads : List QEntry) : Prop :=
  let k := s.setting .trendSpan
  let d := s.setting .historyDepth
  let live := if q.restarted = false ∧ k < d ∧ k + 1 ≤ min d (s.sweep.written + 1)
    then positionsInOrder.filter (fun p => (s.posAt p).state == .bound || (s.posAt p).state == .suspect) else []
  let column := (q.column + d - k) % d
  t.sweep.trend = live.map (fun p => { position := p, column := column, word0 := none, word1 := none }) ∧
    (∀ e ∈ reads, e.access = .read ∧ e.origin = .trend) ∧
    reads.map QEntry.offset ++ t.sweep.keptReads =
      live.flatMap (fun p => [0x4000 + 0x100 * column + p.val * 8, 0x4000 + 0x100 * column + p.val * 8 + 4]) ∧
    (t.sweep.keptReads = [] ∨ t.path.queue.length = 40)

/-- R175: the merged word: the bytes whose enables are on from the host's word, the others from the copy. -/
def mergedInto (old : Word) (h : HostWord) (v : Word) : Prop :=
  ∀ i : Fin 4, v.extractLsb' (8 * i.val) 8 =
    if h.enables.getLsbD i.val then h.data.extractLsb' (8 * i.val) 8 else old.extractLsb' (8 * i.val) 8

/-- The host write of one word of the settings page. -/
def settingWrite (dt offset : Nat) (h : HostWord) : Instr := .settingsWrite dt (BitVec.ofNat 10 offset) (.single h)

/-- 11.2, R2, R89, R106, R149: the allowed values of each non-live word; `depth` is the history depth in force. -/
def allowedWord (w : SettingWord) (v : Word) (depth : Nat) : Prop :=
  let x := bits v 0 16
  let y := bits v 16 16
  match w with
  | .axleLayout => (∀ a : Axle, bits v (4 * a.val) 2 ≠ 3) ∧ bits v 24 2 ≤ 2
  | .assign0 | .assign1 | .assign2 | .assign3 | .laneMask | .attentionMask | .vehicle => True
  | .fireSpeed => x ≤ 30
  | .responseWindow => 100 ≤ x ∧ x ≤ 1000
  | .retryLimit => 1 ≤ x ∧ x ≤ 5
  | .twinMargin => 1 ≤ x ∧ x ≤ 8
  | .rollingThreshold => 2 ≤ x ∧ x ≤ 50
  | .persistSpan => 30 ≤ x ∧ x ≤ 900
  | .ageLimit => 1 ≤ x ∧ x ≤ 60
  | .rollingRange => 2 ≤ x ∧ x < y ∧ y ≤ 600
  | .parkedRange => 30 ≤ x ∧ x < y ∧ y ≤ 4000
  | .driftLimit => 1 ≤ x ∧ x ≤ 8
  | .driftStep => 1 ≤ x ∧ x ≤ 16
  | .silenceMultiple => 2 ≤ x ∧ x ≤ 8
  | .patm => 80 ≤ x ∧ x ≤ 110
  | .persistCount => 1 ≤ x ∧ x ≤ 8
  | .clearCount => 1 ≤ x ∧ x ≤ 8
  | .pressureHyst => x ≤ 100
  | .tempHyst => x ≤ 20
  | .mismatchLimit => 10 ≤ x ∧ x ≤ 300
  | .leakLimits => 5 ≤ x ∧ x ≤ 500 ∧ x < y ∧ y ≤ 2000
  | .tipSettle => x ≤ 120
  | .ackLimit => x ≤ 600
  | .escAction => x ≤ 1
  | .sweepPeriod => 2 ≤ x ∧ x ≤ 60
  | .historyDepth => 8 ≤ x ∧ x ≤ 96
  | .trendSpan => 2 ≤ x ∧ x ≤ 32
  | .viewLag => x < depth
  | .deepDelay => 10 ≤ x ∧ x ≤ 240

/-- R175: a host write of a non-live word in RUN, whole or partial, whose merged word passes the tests of its owner. -/
def takesSetting (s : State) (w : SettingWord) (h : HostWord) (v : Word) : Prop :=
  takesCommands s ∧ h.enables ≠ 0 ∧ mergedInto (s.copy w) h v ∧ allowedWord w v (s.setting .historyDepth)

/-- R155, R175: what a taken write of a non-live word does in RUN, whatever its owner does: the copy and memory hold it, a
whole word sets its loaded flag, and every other copy stays, but for the view lag that a restart can lower (R144). -/
def settingTaken (s t : State) (dt : Nat) (w : SettingWord) (h : HostWord) (v : Word) : Prop :=
  t.copy w = v ∧ t.isLoaded w = (s.isLoaded w || h.enables == 15) ∧ (∀ x, x ≠ w → t.isLoaded x = s.isLoaded x) ∧
    (∀ x, x ≠ w → (x = .viewLag → w ≠ .sweepPeriod ∧ w ≠ .historyDepth) → t.copy x = s.copy x) ∧
    wordWritten s t w.offset h ∧ t.now = s.now + dt ∧ t.candidates = s.candidates ∧ t.pins = s.pins ∧
    t.pending = s.pending ∧ { t.snoop with settings := s.snoop.settings } = s.snoop ∧
    { t.control with loaded := s.control.loaded } = s.control

/-- The state but for the time, the memory with its port, and what the settings snoop and state control hold. -/
def settingAside (s t : State) : State :=
  { t with now := s.now, mem := s.mem, ports := s.ports, snoop := s.snoop, control := s.control }

/-- R89: the word whose range applies to a position: the parked range when it is lifted; else as the last sample's motion
flag says, else the flag handed over at binding, else the rolling range. -/
def rangeWordOf (s : State) (p : Pos) : SettingWord :=
  if s.lifted p = false ∧ ((s.posAt p).sample.map Sample.motion).getD ((s.posAt p).handedMotion.getD true) = true
  then .rollingRange else .parkedRange

/-- R90: E clamped into the range of a word, in sixteenths of a second. -/
def clampedBy (v : Word) (e : Nat) : Nat := max (16 * bits v 0 16) (min (16 * bits v 16 16) e)

/-- R96, R97, R101: a record whose deadline has been recomputed with a multiple `m` and an E of `e`: a deadline at or before
now is gone, a BOUND position is then SUSPECT with SILENT true, and only its SILENT record moves. -/
def recomputed (r u : PosRec) (m e : Nat) (now : Time) : Prop :=
  let gone := r.deadline.any (fun b => decide (16 * b + 1000 * m * e ≤ 16 * now))
  let lost := gone && r.state == .bound
  u = { r with
    interval := some e
    deadline := if gone then none else r.deadline
    state := if lost then .suspect else r.state
    silent := r.silent || lost
    alerts := u.alerts } ∧
  (lost = false → u.alerts = r.alerts) ∧ ∀ k, k ≠ .silent → u.alerts.get k = r.alerts.get k

/-- 11.4: the four words of a notice record; the level bit is 1 for ALARM (log 60). -/
def noticeShows (n : Notice) (w : Nat → Word) : Prop :=
  bits (w 0) 0 8 = n.kind.code ∧ bits (w 0) 8 8 = n.kind.category ∧
    bits (w 0) 16 8 = (n.position.map (fun p => p.val)).getD 0xFF ∧
    bits (w 0) 24 7 = (n.alert.map (fun a => a.1.num + 1)).getD 0 ∧
    bits (w 0) 31 1 = (n.alert.map (fun a => (a.2 == .alarm).toNat)).getD 0 ∧
    w 1 = n.id ∧ w 2 = n.value ∧ bits (w 3) 0 16 = n.stamp.toNat ∧ bits (w 3) 16 16 = n.tag.toNat

/-- R183: the ring slot that the write index names has no write pending, and the queue can admit notices. -/
def ringReady (s : State) : Prop :=
  s.control.refHup = true ∧ ∀ i : Fin 4, pendingWrite s.path.queue (0x2000 + 16 * s.notices.write.toNat + 4 * i.val) = none

/-- R183: a notice raised in RUN with the ring ready: lost when the ring is full or the queue cannot admit four writes;
else its four words stand at the tail of the queue, for the slot that the write index names, and the index advances. -/
def noticePlaced (s t : State) (n : Notice) : Prop :=
  if s.notices.write + 1 = s.readIndex ∨ 44 < s.path.queue.length
  then t.notices = { s.notices with lost := true } ∧ t.path = s.path
  else t.notices = { s.notices with write := s.notices.write + 1, inRing := s.notices.inRing ++ [n] } ∧
    noticeShows n (fun i => n.words.getD i 0) ∧
    t.path = { s.path with
      queue := s.path.queue ++ (List.range 4).map (fun i =>
        { access := .write (n.words.getD i 0), offset := 0x2000 + 16 * s.notices.write.toNat + 4 * i,
          origin := .notice }) }

/-- R160, R183: a notice raised in LOADING or RUN: parked, with the oldest dropped from a full list, or placed in the ring. -/
def noticeTaken (s t : State) (n : Notice) : Prop :=
  (s.control.op = .run → { t.control with loaded := s.control.loaded } = s.control ∧ noticePlaced s t n) ∧
    (s.control.op = .loading → t.notices = s.notices ∧ t.path = s.path ∧
      { t.control with loaded := s.control.loaded } =
        if s.control.parked.length < 16 then { s.control with parked := s.control.parked ++ [n] }
        else { s.control with parked := s.control.parked.tail ++ [n], parkedLost := true, parkedWritten := false })

/-- R105, R176: the notice of a refusal. -/
def refusalNotice (s : State) (kind : NoticeKind) (id : SensorId) (value : Nat) : Notice :=
  { kind := kind, position := none, alert := none, tag := 0, id := id, value := BitVec.ofNat 32 value,
    stamp := s.sweep.count }

/-- R104, R105: six values that make a valid limit set. -/
def limitsAllowed (l : LimitSet) : Prop :=
  (∀ v ∈ [l.target, l.lowWarn, l.lowAlarm, l.highWarn], 0 ≤ v ∧ v ≤ 2047) ∧
    (∀ v ∈ [l.hotWarn, l.hotAlarm], -50 ≤ v ∧ v ≤ 204) ∧
    l.lowWarn < l.lowAlarm ∧ l.hotWarn < l.hotAlarm ∧ l.lowAlarm ≤ l.target

/-- R6: an ID that a record holds is not in the candidate list. -/
def heldNotListed (s : State) : Prop :=
  ∀ (p : Pos) (e : Candidate), e ∈ s.candidates → (s.posAt p).id ≠ some e.id

/-- R121: the notice that a change of an alert record calls for. -/
def alertNoticeOf (s : State) (kind : NoticeKind) (p : Pos) (k : AlertKind) (l : Level) (value : Int) : Notice :=
  { kind := kind, position := some p, alert := some (k, l), tag := 0, id := (s.posAt p).id.getD 0,
    value := BitVec.ofInt 32 value, stamp := s.sweep.count }

/-- R160, R183: the notice of a change of an alert record is raised: placed in the ring in RUN, parked in LOADING, WATCH and
DEEP WATCH. -/
def alertNoticed (s t : State) (n : Notice) : Prop :=
  (s.control.op = .run → { t.control with wake := s.control.wake } = s.control ∧ (ringReady s → noticePlaced s t n)) ∧
    (s.control.op = .loading ∨ s.control.op = .watch ∨ s.control.op = .deepWatch →
      t.notices = s.notices ∧ t.path = s.path ∧
      { t.control with wake := s.control.wake } =
        if s.control.parked.length < 16 then { s.control with parked := s.control.parked ++ [n] }
        else { s.control with parked := s.control.parked.tail ++ [n], parkedLost := true, parkedWritten := false })

/-- R118 to R122, R159: a record has made the move `m` with a value. A raise and an escalation stamp the record and give it the
value; no other record changes; the lamp and the escalation timer follow the records; an alarm raised in WATCH or DEEP WATCH
asserts the wake request; and the notice of the move is raised. -/
def alertMoved (s t : State) (p : Pos) (k : AlertKind) (m : AlertRec × AlertEvent) (value : Int) : Prop :=
  t.alertAt p k =
    (if m.2 = .raised ∨ m.2 = .escalated then { m.1 with stamp := s.sweep.count, value := value } else m.1) ∧
  (∀ q j, (q ≠ p ∨ j ≠ k) → t.alertAt q j = s.alertAt q j) ∧
  (∀ q, { t.posAt q with alerts := (s.posAt q).alerts } = s.posAt q) ∧
  lampOk t ∧ escalationOk t ∧
  (t.control.wake = true ↔ s.control.wake = true ∨
    (((m.2 = .raised ∧ m.1.level = .alarm) ∨ m.2 = .escalated) ∧
      (s.control.op = .watch ∨ s.control.op = .deepWatch))) ∧
  (m.2 = .none → t.notices = s.notices ∧ t.path = s.path ∧ { t.control with wake := s.control.wake } = s.control) ∧
  (m.2 = .raised → alertNoticed s t (alertNoticeOf s .alertRaised p k m.1.level value)) ∧
  (m.2 = .escalated → alertNoticed s t (alertNoticeOf s .alertEscalated p k .alarm value)) ∧
  (m.2 = .cleared →
    alertNoticed s t (alertNoticeOf s .alertCleared p k (s.alertAt p k).level (s.alertAt p k).value)) ∧
  hostSideSame s t ∧ t.candidates = s.candidates ∧ t.trigger = s.trigger ∧ t.intake = s.intake

/-- R62: the trigger queue after it has taken a LOCATE request with tag 0 for a coil: a request queued for the coil keeps its
place and its attempts and, when it ranks lower, takes the purpose and the tag; with none the request joins the tail. -/
def withLocate (q : List Request) (c : Coil) : List Request :=
  if q.any (fun r => r.coil == c)
  then q.map (fun r => if r.coil = c ∧ (r.purpose = .attach ∨ r.purpose = .recheck)
    then { r with purpose := .locate, tag := 0 } else r)
  else q ++ [newRequest .locate c]

end Sys2Proof.Claim

open Sys2Proof Sys2Proof.Machine Sys2Proof.Claim

/-! ### The queue of commands -/

/-- Every command at the front of the queue runs as exec on the state with the queue's rest; on an empty queue one ms passes
(DESIGN CHOICE, log 1). -/
def Obligations.StepRunsTheFrontCommand : Prop :=
  (∀ (c : Instr) (rest : List Instr) (s : State), s.pending = c :: rest → step s = exec c { s with pending := rest }) ∧
  ∀ s : State, s.pending = [] → step s = .next (s.elapse 1)

/-- No command stops the part, and none touches the queue of commands: the part has no fault (log 27). -/
def Obligations.EveryCommandAnswersANextState : Prop :=
  ∀ (c : Instr) (s : State), ∃ t, exec c s = .next t ∧ t.pending = s.pending

/-! ### Lines and operating states (chapter 8) -/

/-- R151: entering RESET puts every block at its reset values; the fire log and the starts of the coils are kept, the queue
is emptied and a held host transaction is released. In RESET a second cause changes the line only. That the references
stand low in RESET (DESIGN CHOICE, log 5), that the copies of the command and loader data words return to 0 (DESIGN CHOICE,
log 6) and that the ignored bits of every copy return to 0 (DESIGN CHOICE, log 58) are the model's. -/
def Obligations.ResetEntryRestoresResetValues : Prop :=
  (∀ (dt : Nat) (cause : ResetCause) (s : State), s.control.op ≠ .reset →
    ∃ t, exec (.resetEntry dt cause) s = .next t ∧ t.now = s.now + dt ∧ t.control = Control.reset ∧
      t.positions = State.reset.positions ∧ t.candidates = [] ∧ t.intake = Intake.reset ∧ t.eval = Eval.reset ∧
      t.sweep = Sweep.reset ∧ t.snoop = Snoop.reset ∧ t.notices = NoticeWriter.reset ∧
      t.trigger = { Trigger.reset with log := s.trigger.log, lastStart := s.trigger.lastStart } ∧
      t.path.queue = [] ∧ t.path.held = none ∧ t.pins = s.pins.fail cause ∧ t.pending = s.pending ∧
      (s.path.held = none → t.mem = s.mem ∧ t.path.refused = 0 ∧ t.path.lastRefused = none)) ∧
  ∀ (dt : Nat) (cause : ResetCause) (s : State), s.control.op = .reset →
    exec (.resetEntry dt cause) s = .next { s.elapse dt with pins := s.pins.fail cause }

/-- R151, R154, R157: the exit from RESET takes the levels of the lines as references. With HUP high the part enters LOADING
and queues one LOAD READ for each settings word whose loaded flag is clear, in ascending offset; with HUP low it enters
WATCH: the deep-watch timer starts and the first listen window begins, and an unmasked lane that was OFF enters SETTLING. -/
def Obligations.ResetExitEntersLoadingOrWatch : Prop :=
  (∀ (dt : Nat) (s : State), s.control.op = .reset → s.pins.hup = true → s.path.queue = [] → s.path.keptLoads = [] →
    ∃ t, exec (.resetExit dt) s = .next t ∧ t.now = s.now + dt ∧ t.control.op = .loading ∧
      t.control.refIgn = s.pins.ign ∧ t.control.refTrl = s.pins.trl ∧ t.control.refHup = true ∧
      t.pins.resetN = true ∧ t.pins.supplyOk = true ∧
      t.path.queue = (settingWords.filter (fun w => !(s.isLoaded w))).map
        (fun w => { access := .read, offset := w.offset, origin := .load }) ∧
      t.path.keptLoads = [] ∧ t.mem = s.mem ∧ t.positions = s.positions ∧ t.snoop = s.snoop ∧ t.pending = s.pending) ∧
  ∀ (dt : Nat) (s : State), s.control.op = .reset → s.pins.hup = false →
    ∃ t, exec (.resetExit dt) s = .next t ∧ t.control.op = .watch ∧ t.control.refHup = false ∧
      t.control.refIgn = s.pins.ign ∧ t.control.refTrl = s.pins.trl ∧
      t.control.deepEnd = some (s.now + dt + 60000 * s.setting .deepDelay) ∧
      t.control.windowEnd = some (s.now + dt + 2000) ∧ t.control.nextWindow = some (s.now + dt + 30000) ∧
      (∀ l, s.masked l = false → (s.intake.lanes.get l).state = .off →
        (t.intake.lanes.get l).state = .settling (s.now + dt + 20)) ∧
      t.mem = s.mem ∧ t.positions = s.positions ∧ t.path = s.path ∧ t.snoop = s.snoop ∧ t.pending = s.pending

/-- R152, R154, R161: a rise of HUP in WATCH or DEEP WATCH ends the listen cycle and the wake request. With the settings
loaded the part enters RUN: the parked list is then empty, the sweep timer starts with the full period, every quiet count is 0,
and a deadline based on now is armed for each position that holds an ID other than a DETACHED one. Otherwise it enters
LOADING and queues the LOAD READs. -/
def Obligations.HostUpRiseEntersRunOrLoading : Prop :=
  (∀ (dt : Nat) (s : State), s.pins.hup = false → (s.control.op = .watch ∨ s.control.op = .deepWatch) →
    s.control.settingsLoaded = true →
    ∃ t, exec (.hostUpRise dt) s = .next t ∧ t.control.op = .run ∧ t.control.refHup = true ∧ t.pins.hup = true ∧
      t.control.deepEnd = none ∧ t.control.nextWindow = none ∧ t.control.windowEnd = none ∧ t.control.wake = false ∧
      t.control.parked = [] ∧ t.sweep.timer = some (s.now + dt + 1000 * s.setting .sweepPeriod) ∧
      (∀ p : Pos, (t.posAt p).deadline =
        if (s.posAt p).state.holdsId = true ∧ (s.posAt p).state ≠ .detached then some (s.now + dt)
        else (s.posAt p).deadline) ∧
      (∀ l, (t.intake.lanes.get l).quietCount = 0) ∧
      sameBindings s t ∧ t.mem = s.mem ∧ t.snoop = s.snoop ∧ t.pending = s.pending) ∧
  ∀ (dt : Nat) (s : State), s.pins.hup = false → (s.control.op = .watch ∨ s.control.op = .deepWatch) →
    s.control.settingsLoaded = false → s.path.queue = [] → s.path.keptLoads = [] →
    ∃ t, exec (.hostUpRise dt) s = .next t ∧ t.control.op = .loading ∧ t.control.refHup = true ∧
      t.control.deepEnd = none ∧ t.control.nextWindow = none ∧ t.control.wake = false ∧
      t.control.parked = s.control.parked ∧
      t.path.queue = (settingWords.filter (fun w => !(s.isLoaded w))).map
        (fun w => { access := .read, offset := w.offset, origin := .load }) ∧
      t.mem = s.mem ∧ t.positions = s.positions ∧ t.snoop = s.snoop ∧ t.pending = s.pending

/-- R162, R22, R87, R100, R142, R157, R174, R184: a fall of HUP in RUN enters WATCH: the outbound queue, the trigger queue
and the fire records go, the deadlines, references, claims and recheck flags go, the publication and the published flag go,
the history is restarted, the write index returns to the completed index, and the listen cycle starts. Bindings stay, but a
LOCATING position becomes UNLEARNED. A fall in LOADING abandons the load (R156): the queue is emptied and a result on the bus
is no longer reported, the loaded flags, the settings and the parked list stay, and WATCH starts as from RUN. -/
def Obligations.HostUpFallLeavesRun : Prop :=
  (∀ (dt : Nat) (s : State), s.pins.hup = true → s.control.op = .run →
    ∃ t, exec (.hostUpFall dt) s = .next t ∧ t.control.op = .watch ∧ t.control.refHup = false ∧ t.pins.hup = false ∧
      t.path.queue = [] ∧ t.path.held = none ∧ t.trigger.queue = [] ∧ t.trigger.records = [] ∧
      t.trigger.log = s.trigger.log ∧ t.trigger.lastCode = s.trigger.lastCode ∧
      t.sweep.timer = none ∧ t.sweep.publication = none ∧ t.sweep.published = false ∧ t.sweep.hold = .released ∧
      t.sweep.written = 0 ∧ t.sweep.head = s.setting .historyDepth - 1 ∧ t.sweep.trend = [] ∧
      t.sweep.front = s.sweep.front ∧ t.sweep.count = s.sweep.count ∧
      t.notices.write = s.notices.completed ∧ t.notices.completed = s.notices.completed ∧
      t.notices.lost = (s.notices.lost || s.notices.write != s.notices.completed) ∧
      t.control.deepEnd = some (s.now + dt + 60000 * s.setting .deepDelay) ∧
      t.control.windowEnd = some (s.now + dt + 2000) ∧ t.control.nextWindow = some (s.now + dt + 30000) ∧
      (∀ p : Pos, (t.posAt p).deadline = none ∧ (t.posAt p).reference = none ∧ (t.posAt p).claim = none ∧
        (t.posAt p).recheck = false ∧ (t.posAt p).id = (s.posAt p).id ∧ (t.posAt p).epoch = (s.posAt p).epoch ∧
        (t.posAt p).alerts = (s.posAt p).alerts ∧
        (t.posAt p).state = if (s.posAt p).state = .locating then .unlearned else (s.posAt p).state) ∧
      t.eval = s.eval ∧ t.pending = s.pending ∧ (s.path.held = none → t.mem = s.mem)) ∧
  ∀ (dt : Nat) (s : State), s.pins.hup = true → s.control.op = .loading →
    s.setting .viewLag < s.setting .historyDepth →
    ∃ t, exec (.hostUpFall dt) s = .next t ∧ t.pins = { s.pins with hup := false } ∧
      t.control = { s.control with
        op := .watch, refHup := false, wake := false
        deepEnd := some (s.now + dt + 60000 * s.setting .deepDelay)
        windowEnd := some (s.now + dt + 2000), nextWindow := some (s.now + dt + 30000) } ∧
      t.path.queue = [] ∧ t.path.keptLoads = [] ∧ t.path.held = none ∧
      t.path.bus = s.path.bus.map (fun b => { b with reported := false }) ∧ t.snoop = s.snoop ∧
      (∀ l, t.intake.lanes.get l = { s.intake.lanes.get l with
        state := if s.masked l then .off else if (s.intake.lanes.get l).state = .off then .settling (s.now + dt + 20)
          else (s.intake.lanes.get l).state }) ∧
      t.positions = s.positions ∧ t.candidates = s.candidates ∧ t.trigger = s.trigger ∧ t.eval = s.eval ∧
      t.pending = s.pending ∧ (s.path.held = none → t.mem = s.mem)

/-- R61, R62, R82, R83, R153: in RUN a rise of IGN offers a RECHECK with tag 0, in coil order, for each available coil that
serves a BOUND, SUSPECT or CONFLICT position: it joins the tail of the trigger queue, or leaves a request that is queued for
the coil as it stands. A rise of TRL in RUN offers an ATTACH with tag 0 for each trailer coil that serves a DETACHED or
UNLEARNED position: it joins the tail, or gives its purpose and tag to a RECHECK queued for the coil. Neither changes anything
but the queue, the line and its reference. A rise out of RUN, and a fall of IGN, change the line and its reference only; in
RESET only the line changes. -/
def Obligations.LineEdgesQueueRequests : Prop :=
  (∀ (dt : Nat) (s : State), s.pins.ign = false → s.control.op = .run →
    exec (.ignitionRise dt) s = .next { s.elapse dt with
      pins := { s.pins with ign := true }, control := { s.control with refIgn := true }
      trigger := { s.trigger with
        queue := s.trigger.queue ++ ((recheckCoils s).filter (fun c => !(isQueued s c))).map (newRequest .recheck) } }) ∧
  (∀ (dt : Nat) (s : State), s.pins.trl = false → s.control.op = .run →
    exec (.trailerPresentRise dt) s = .next { s.elapse dt with
      pins := { s.pins with trl := true }, control := { s.control with refTrl := true }
      trigger := { s.trigger with
        queue := s.trigger.queue.map (fun r => if r.coil ∈ attachCoils s ∧ r.purpose = .recheck
            then { r with purpose := .attach, tag := 0 } else r) ++
          ((attachCoils s).filter (fun c => !(isQueued s c))).map (newRequest .attach) } }) ∧
  (∀ (dt : Nat) (s : State), s.pins.ign = false → s.control.op ≠ .run → s.control.op ≠ .reset →
    exec (.ignitionRise dt) s =
      .next { s.elapse dt with
        pins := { s.pins with ign := true }, control := { s.control with refIgn := true } }) ∧
  (∀ (dt : Nat) (s : State), s.pins.trl = false → s.control.op ≠ .run → s.control.op ≠ .reset →
    exec (.trailerPresentRise dt) s =
      .next { s.elapse dt with
        pins := { s.pins with trl := true }, control := { s.control with refTrl := true } }) ∧
  (∀ (dt : Nat) (s : State), s.control.op ≠ .reset →
    exec (.ignitionFall dt) s =
      .next { s.elapse dt with
        pins := { s.pins with ign := false }, control := { s.control with refIgn := false } }) ∧
  ∀ (dt : Nat) (s : State), s.control.op = .reset →
    exec (.ignitionRise dt) s = .next { s.elapse dt with pins := { s.pins with ign := true } } ∧
    exec (.ignitionFall dt) s = .next { s.elapse dt with pins := { s.pins with ign := false } } ∧
    exec (.trailerPresentRise dt) s = .next { s.elapse dt with pins := { s.pins with trl := true } }

/-- R18, R85: a fall of TRL makes the BOUND, SUSPECT and CONFLICT trailer positions DETACHED with ID and epoch kept and the
deadline, the claim and the recheck flag gone, makes LOCATING ones UNLEARNED, leaves every other position's binding, and
removes the requests and records of the trailer coils. -/
def Obligations.TrailerFallDetaches : Prop :=
  ∀ (dt : Nat) (s : State), s.pins.trl = true → s.control.op ≠ .reset →
    ∃ t, exec (.trailerPresentFall dt) s = .next t ∧ t.control.refTrl = false ∧ t.pins.trl = false ∧
      (∀ p : Pos, (t.posAt p).id = (s.posAt p).id ∧ (t.posAt p).epoch = (s.posAt p).epoch ∧
        (t.posAt p).sample = (s.posAt p).sample ∧
        (t.posAt p).state =
          (if trailerPos s.layout p = true then
            (match (s.posAt p).state with
             | .bound => .detached
             | .suspect => .detached
             | .conflict => .detached
             | .locating => .unlearned
             | .vacant => .vacant
             | .unlearned => .unlearned
             | .detached => .detached)
           else (s.posAt p).state) ∧
        (s.detaches p = true → (t.posAt p).deadline = none ∧ (t.posAt p).claim = none ∧ (t.posAt p).recheck = false)) ∧
      t.trigger.queue = s.trigger.queue.filter (fun r => !(axleTrailer s.layout (coilAxle r.coil))) ∧
      (∀ r ∈ t.trigger.records, axleTrailer s.layout (coilAxle r.coil) = false) ∧
      t.trigger.coils = s.trigger.coils ∧ hostSideSame { s with pins := { s.pins with trl := false } } t

/-- R163: a change of the straps moves the window base, in every operating state, and changes nothing else. -/
def Obligations.WindowBaseFollowsTheStraps : Prop :=
  ∀ (dt : Nat) (straps : BitVec 4) (s : State),
    ∃ t, exec (.windowBaseChange dt straps) s = .next t ∧ t.windowBase = 0x100000 * straps.toNat ∧
      t = { s.elapse dt with pins := { s.pins with straps := straps } }

/-! ### Reception (chapters 2, 1, 3) -/

/-- R26: a SETTLING lane whose 20 ms have passed enters ON, with its enable high throughout; its counts and its quiet flag, the
other lanes and everything else stay. -/
def Obligations.SettlingLaneTurnsOn : Prop :=
  ∀ (dt : Nat) (l : Lane) (e : Time) (s : State), (s.intake.lanes.get l).state = .settling e → e ≤ s.now + dt →
    ∃ t, exec (.laneSettlingEnd dt l) s = .next t ∧ s.rxen l = true ∧ t.rxen l = true ∧
      t = { s.elapse dt with intake := { s.intake with
        lanes := s.intake.lanes.set l { s.intake.lanes.get l with state := .on (s.now + dt) } } }

/-- R27, R34, R36: a delivery whose frame ended while the lane was not ON changes nothing; one of fewer than 2 or more than 17
bytes, or with a malformed frame, raises the lane's bad-frame count by one, saturating at 65,535, and changes nothing else:
it does not restore a quiet lane. Of a frame that ended in the millisecond in which the lane entered ON the command says which
came first (log 25), and a delivery of one byte, which has no frame, is judged by the same time (DESIGN CHOICE, log 40). -/
def Obligations.BadDeliveriesAreDiscardedOrCounted : Prop :=
  (∀ (dt sinceEnd : Nat) (l : Lane) (bytes : List Byte) (first : Bool) (s : State),
    (s.intake.lanes.get l).state.heardOn (s.now + dt - sinceEnd) first = false →
    exec (.delivery dt l bytes sinceEnd first) s = .next (s.elapse dt)) ∧
  ∀ (dt sinceEnd : Nat) (l : Lane) (bytes : List Byte) (first : Bool) (s : State),
    (s.intake.lanes.get l).state.heardOn (s.now + dt - sinceEnd) first = true →
    (bytes.length < 2 ∨ 17 < bytes.length ∨ decodeFrame bytes.dropLast = none) →
    exec (.delivery dt l bytes sinceEnd first) s = .next { s.elapse dt with intake := { s.intake with
      lanes := s.intake.lanes.set l
        { s.intake.lanes.get l with bad := min 65535 ((s.intake.lanes.get l).bad + 1) } } }

/-- R34, R36, R38, R39: a good frame whose ID and sequence stand in the recent telegram list merges: the lane is heard with the
higher of its best level and the frame's, the payload and the first arrival stay, no entry joins and the merged count rises.
Any other makes one entry at the tail, heard on the frame's lane at its level, while the list holds fewer than 24; with a full
list, on a lane that is not quiet, the entry at the head leaves and is routed first, as one that settles by time. Either way
the good count rises and the lane is not quiet. -/
def Obligations.GoodFramesMergeOrEnter : Prop :=
  (∀ (dt sinceEnd : Nat) (l : Lane) (bytes : List Byte) (first : Bool) (x : Payload) (s : State),
    (s.intake.lanes.get l).state.heardOn (s.now + dt - sinceEnd) first = true →
    2 ≤ bytes.length → bytes.length ≤ 17 → decodeFrame bytes.dropLast = some x →
    s.intake.recent.any (fun e => e.keyOf x) = true →
    ∃ t, exec (.delivery dt l bytes sinceEnd first) s = .next t ∧
      t.intake.merged = min 65535 (s.intake.merged + 1) ∧
      (t.intake.lanes.get l).good = min 65535 ((s.intake.lanes.get l).good + 1) ∧
      (t.intake.lanes.get l).quiet = false ∧
      t.intake.recent = s.intake.recent.map (fun e =>
        if e.payload.id = x.id ∧ e.payload.seq = x.seq then
          { e with heard := e.heard.set l (some (match e.heard.get l with
            | none => bytes.getLastD 0
            | some v => if v.toNat < (bytes.getLastD 0).toNat then bytes.getLastD 0 else v)) }
        else e) ∧
      t.positions = s.positions ∧ t.candidates = s.candidates ∧ t.trigger = s.trigger ∧ hostSideSame s t) ∧
  (∀ (dt sinceEnd : Nat) (l : Lane) (bytes : List Byte) (first : Bool) (x : Payload) (s : State),
    (s.intake.lanes.get l).state.heardOn (s.now + dt - sinceEnd) first = true →
    2 ≤ bytes.length → bytes.length ≤ 17 → decodeFrame bytes.dropLast = some x →
    s.intake.recent.any (fun e => e.keyOf x) = false → s.intake.recent.length < 24 →
    ∃ t, exec (.delivery dt l bytes sinceEnd first) s = .next t ∧
      t.intake.merged = s.intake.merged ∧
      (t.intake.lanes.get l).good = min 65535 ((s.intake.lanes.get l).good + 1) ∧
      (t.intake.lanes.get l).quiet = false ∧
      t.intake.recent = s.intake.recent ++ [{ payload := x, firstArrival := s.now + dt - sinceEnd,
                                              heard := (Lanes.all none).set l (some (bytes.getLastD 0)) }] ∧
      t.positions = s.positions ∧ t.candidates = s.candidates ∧ t.trigger = s.trigger ∧ hostSideSame s t) ∧
  ∀ (dt sinceEnd : Nat) (l : Lane) (bytes : List Byte) (first : Bool) (x : Payload) (e : RecentEntry)
    (rest : List RecentEntry) (s : State),
    (s.intake.lanes.get l).state.heardOn (s.now + dt - sinceEnd) first = true →
    2 ≤ bytes.length → bytes.length ≤ 17 → decodeFrame bytes.dropLast = some x →
    s.intake.recent.any (fun y => y.keyOf x) = false → s.intake.recent = e :: rest → rest.length = 23 →
    (s.intake.lanes.get l).quiet = false →
    let heard := { s.intake.lanes.get l with good := min 65535 ((s.intake.lanes.get l).good + 1) }
    let r := State.route
      { s.elapse dt with intake := { s.intake with lanes := s.intake.lanes.set l heard, recent := rest } } e
    exec (.delivery dt l bytes sinceEnd first) s = .next { r with intake := { r.intake with
      recent := rest ++ [{ payload := x, firstArrival := s.now + dt - sinceEnd,
                           heard := (Lanes.all none).set l (some (bytes.getLastD 0)) }] } }

/-- R40, R41, R23, R24, R92, R93, R94, R97, R102: a settled telegram that repeats the sequence of its holder's sample within
1,000 ms of its acceptance leaves the list and does nothing else. Any other of the ID of a BOUND or SUSPECT position fills its
sample and leaves it BOUND, not SILENT, with the same ID and epoch, also where a change of the expected interval expires the
old deadline in the event (DEDUCED, log 14). A CONFLICT position takes the sample, stays CONFLICT and keeps its alert records;
a DETACHED one ignores the telegram, which is then only offered to the trigger unit when it is TRIGGERED. In RUN a routine
sample that keeps the range moves the drift count by its gap, steps and clamps the interval at the drift limit, or counts the
telegrams missed in a long gap; the reference and the base of the deadline become its first arrival. -/
def Obligations.HeldTelegramIsDroppedOrTaken : Prop :=
  (∀ (dt : Nat) (e : RecentEntry) (rest : List RecentEntry) (p : Pos) (x : Sample) (s : State),
      s.intake.recent = e :: rest → e.firstArrival + 120 ≤ s.now + dt → s.holder e.payload.id = some p →
      (s.posAt p).sample = some x → x.seq = e.payload.seq → s.now + dt ≤ x.accepted + 1000 →
      exec (.entrySettle dt) s = .next { s.elapse dt with intake := { s.intake with recent := rest } }) ∧
  (∀ (dt : Nat) (e : RecentEntry) (rest : List RecentEntry) (p : Pos) (s : State),
    s.intake.recent = e :: rest → e.firstArrival + 120 ≤ s.now + dt → s.holder e.payload.id = some p →
    ((s.posAt p).state = .bound ∨ (s.posAt p).state = .suspect) →
    lateRepeat (s.posAt p) e (s.now + dt) = false →
    ∃ t x, exec (.entrySettle dt) s = .next t ∧ (t.posAt p).sample = some x ∧
      sampleShows (s.posAt p) e (s.setting .patm) (s.now + dt) x ∧
      (t.posAt p).lastTemp = lastTempAfter (s.posAt p).lastTemp e.payload.temp ∧
      (t.posAt p).homeLane = bestLane e.heard ∧ (t.posAt p).silent = false ∧
      sameBindings (s.modPos p (fun r => { r with state := .bound })) t ∧
      t.intake.recent = rest ∧ (e.payload.kind ≠ .triggered → t.candidates = s.candidates) ∧ hostSideSame s t) ∧
  (∀ (dt : Nat) (e : RecentEntry) (rest : List RecentEntry) (p : Pos) (s : State),
    s.intake.recent = e :: rest → e.firstArrival + 120 ≤ s.now + dt → s.holder e.payload.id = some p →
    (s.posAt p).state = .conflict → (s.posAt p).silent = false → lateRepeat (s.posAt p) e (s.now + dt) = false →
    ∃ t x, exec (.entrySettle dt) s = .next t ∧ (t.posAt p).sample = some x ∧
      sampleShows (s.posAt p) e (s.setting .patm) (s.now + dt) x ∧
      (t.posAt p).homeLane = bestLane e.heard ∧ (t.posAt p).alerts = (s.posAt p).alerts ∧ sameBindings s t ∧
      (∀ q, q ≠ p → t.posAt q = s.posAt q) ∧ t.notices = s.notices ∧ t.eval = s.eval ∧
      t.intake.recent = rest ∧ (e.payload.kind ≠ .triggered → t.candidates = s.candidates) ∧ hostSideSame s t) ∧
  (∀ (dt : Nat) (e : RecentEntry) (rest : List RecentEntry) (p : Pos) (s : State),
    s.intake.recent = e :: rest → e.firstArrival + 120 ≤ s.now + dt → s.holder e.payload.id = some p →
    (s.posAt p).state = .detached →
    ∃ t, exec (.entrySettle dt) s = .next t ∧ t.positions = s.positions ∧
      t.candidates.map unanswered = s.candidates.map unanswered ∧ hostSideSame s t ∧
      (e.payload.kind ≠ .triggered → t = { s.elapse dt with intake := { s.intake with recent := rest } })) ∧
  ∀ (dt : Nat) (e : RecentEntry) (rest : List RecentEntry) (p : Pos) (ref i : Nat) (s : State),
    s.intake.recent = e :: rest → e.firstArrival + 120 ≤ s.now + dt → s.holder e.payload.id = some p →
    ((s.posAt p).state = .bound ∨ (s.posAt p).state = .suspect ∨ (s.posAt p).state = .conflict) →
    lateRepeat (s.posAt p) e (s.now + dt) = false → s.control.op = .run →
    (e.payload.kind = .periodic ∨ e.payload.kind = .parked) →
    (s.posAt p).reference = some ref → (s.posAt p).interval = some i →
    let range := s.rangeFor (!(s.lifted p) && e.payload.motion)
    let gap : Int := 16 * ((e.firstArrival : Int) - ref)
    let d := (s.posAt p).drift
    let d' : Int := if 1000 * (i : Int) < gap then (if 0 ≤ d then d + 1 else 1)
      else if gap < 1000 * (i : Int) then (if d ≤ 0 then d - 1 else -1) else d
    range.1 ≤ i → i ≤ range.2 → (s.posAt p).drift.natAbs < s.setting .driftLimit →
    ∃ t, exec (.entrySettle dt) s = .next t ∧ (t.posAt p).reference = some e.firstArrival ∧
      (t.posAt p).deadline = some e.firstArrival ∧
      (1500 * (i : Int) < gap → (t.posAt p).interval = some i ∧ (t.posAt p).drift = d ∧
        (t.posAt p).missed = min 255 ((s.posAt p).missed + ((2 * gap.toNat + 1000 * i) / (2000 * i) - 1))) ∧
      (gap ≤ 1500 * (i : Int) → (t.posAt p).missed = (s.posAt p).missed ∧
        (d' = s.setting .driftLimit → (t.posAt p).drift = 0 ∧
          (t.posAt p).interval = some (max range.1 (min range.2 (i + s.setting .driftStep)))) ∧
        (d' = -(s.setting .driftLimit : Int) → (t.posAt p).drift = 0 ∧
          (t.posAt p).interval = some (max range.1 (min range.2 (i - s.setting .driftStep)))) ∧
        (d'.natAbs < s.setting .driftLimit → (t.posAt p).drift = d' ∧ (t.posAt p).interval = some i))

/-- R40, R43, R46, R47, R48, R51, R52, R53: a settled telegram of an ID that no position holds and that is in no candidate
entry makes an entry at the tail with the fields of R46; when the list holds 32, the non-CLAIMED entry with the oldest
last-heard time goes first, the one nearest the head of equals, and where all 32 are CLAIMED the list stays. A telegram of an
ID that has an entry updates it in its place as R47 gives, and it becomes PERSISTENT or STATIONARY by the tests of R51 and
R52, read after the update; in RUN one that becomes PERSISTENT has a request queued for each coil of R53. A TRIGGERED
telegram is then offered to the trigger unit, which may write the entry's answer and CLAIMED flag. -/
def Obligations.UnheldTelegramMakesACandidate : Prop :=
  (∀ (dt : Nat) (e : RecentEntry) (rest : List RecentEntry) (s : State),
    s.intake.recent = e :: rest → e.firstArrival + 120 ≤ s.now + dt → s.holder e.payload.id = none →
    s.candidate e.payload.id = none →
    ∃ t c, exec (.entrySettle dt) s = .next t ∧ t.intake.recent = rest ∧ t.positions = s.positions ∧ hostSideSame s t ∧
      c.id = e.payload.id ∧ c.firstHeard = e.firstArrival ∧ c.lastHeard = e.firstArrival ∧ c.telegrams = 1 ∧
      c.rolling = (if e.payload.motion then 1 else 0) ∧ c.still = (if e.payload.motion then 0 else 1) ∧
      c.motion = e.payload.motion ∧ c.code = e.payload.code ∧ c.temp = e.payload.temp ∧ c.answer = none ∧
      c.persistent = false ∧ c.stationary = false ∧ c.claimed = s.answered e.payload.id ∧
      (∀ l, c.hits.get l = (if (e.heard.get l).isSome then 1 else 0) ∧
        c.sums.get l = ((e.heard.get l).map BitVec.toNat).getD 0) ∧
      (e.payload.kind ≠ .triggered → t.trigger = s.trigger) ∧
      (s.candidates.length < 32 → t.candidates.map unanswered = (s.candidates ++ [c]).map unanswered ∧
        (e.payload.kind ≠ .triggered → t.candidates = s.candidates ++ [c])) ∧
      (32 ≤ s.candidates.length → (∀ x ∈ s.candidates, x.claimed = true) →
        t.candidates.map unanswered = s.candidates.map unanswered ∧
        (e.payload.kind ≠ .triggered → t.candidates = s.candidates)) ∧
      ∀ pre o post, s.candidates = pre ++ o :: post → 32 ≤ s.candidates.length → candidatesOk s → o.claimed = false →
        (∀ x ∈ pre, x.claimed = false → o.lastHeard < x.lastHeard) →
        (∀ x ∈ post, x.claimed = false → o.lastHeard ≤ x.lastHeard) →
        t.candidates.map unanswered = (pre ++ post ++ [c]).map unanswered ∧
        (e.payload.kind ≠ .triggered → t.candidates = pre ++ post ++ [c])) ∧
  ∀ (dt : Nat) (e : RecentEntry) (rest : List RecentEntry) (pre post : List Candidate) (c : Candidate) (s : State),
    s.intake.recent = e :: rest → e.firstArrival + 120 ≤ s.now + dt → s.holder e.payload.id = none →
    candidatesOk s → s.candidates = pre ++ c :: post → c.id = e.payload.id →
    ∃ t d, exec (.entrySettle dt) s = .next t ∧ t.intake.recent = rest ∧ t.positions = s.positions ∧ hostSideSame s t ∧
      t.candidates.map unanswered = (pre ++ d :: post).map unanswered ∧
      (e.payload.kind ≠ .triggered → t.candidates = pre ++ d :: post) ∧
      d.id = c.id ∧ d.firstHeard = c.firstHeard ∧ d.lastHeard = max c.lastHeard e.firstArrival ∧
      d.telegrams = min 255 (c.telegrams + 1) ∧
      d.rolling = (if e.payload.motion then min 255 (c.rolling + 1) else c.rolling) ∧
      d.still = (if e.payload.motion then c.still else min 255 (c.still + 1)) ∧
      d.motion = e.payload.motion ∧ d.code = e.payload.code ∧
      d.temp = (if e.payload.temp = .absent then c.temp else e.payload.temp) ∧ d.answer = c.answer ∧
      d.claimed = c.claimed ∧
      (∀ l,
        ((e.heard.get l).isSome = true ∧ c.hits.get l < 255 → d.hits.get l = c.hits.get l + 1 ∧
          d.sums.get l = c.sums.get l + ((e.heard.get l).map BitVec.toNat).getD 0) ∧
        (¬((e.heard.get l).isSome = true ∧ c.hits.get l < 255) → d.hits.get l = c.hits.get l ∧
          d.sums.get l = c.sums.get l)) ∧
      let long := 1000 * s.setting .persistSpan ≤ d.lastHeard - d.firstHeard
      let persists := c.persistent = false ∧ s.setting .rollingThreshold ≤ d.rolling ∧ long
      (persists → d.persistent = true ∧ d.stationary = false ∧
        (s.control.op = .run → ∀ k, s.available k = true → s.wantsLocate d.strongest k = true →
          ∃ r ∈ t.trigger.queue, r.coil = k)) ∧
      (¬persists → d.persistent = c.persistent ∧
        (d.stationary = true ↔ (c.stationary = true ∧ e.payload.motion = false) ∨
          (c.persistent = false ∧ d.rolling = 0 ∧ s.setting .rollingThreshold ≤ d.still ∧ long)) ∧
        (e.payload.kind ≠ .triggered → t.trigger = s.trigger ∧ t.notices = s.notices))

/-- R102, R146: cold pressure is invalid for code 0, 2047 for code 1023, and otherwise the rounded quotient of the
compensated absolute pressure less the atmospheric setting, clamped to 0 to 2047. A leak rate is the fall of the cold
pressure in tenths of a kPa per minute, truncated toward zero and clamped to 16 bits. -/
def Obligations.ColdPressureAndLeakRate : Prop :=
  (∀ (t : Int) (patm : Nat), coldPressure 0 t patm = none ∧ coldPressure 1023 t patm = some 2047) ∧
  (∀ (code : BitVec 10) (t : Int) (patm : Nat), code ≠ 0 → code ≠ 1023 → -50 ≤ t → t ≤ 204 → 80 ≤ patm → patm ≤ 110 →
    ∃ q : Int, 2 * (t + 273) * q ≤ 2 * (2 * code.toNat * 293) + (t + 273) ∧
      2 * (2 * code.toNat * 293) + (t + 273) < 2 * (t + 273) * (q + 1) ∧
      ((coldPressure code t patm).map Int.ofNat) = some (max 0 (min 2047 (q - patm)))) ∧
  ∀ (old new elapsed period : Nat), 0 < elapsed → 0 < period →
    (new ≤ old → leakRate old new elapsed period = min 32767 (((old - new) * 600 / (elapsed * period) : Nat) : Int)) ∧
    (old ≤ new → leakRate old new elapsed period = max (-32768) (-(((new - old) * 600 / (elapsed * period) : Nat) : Int)))

/-! ### Evaluation (chapter 6) -/

/-- R108 to R114: the results of LOW, HIGH, HOT and SENSOR of a sample against the position's limit set, of MISMATCH of a twin
pair's stored cold pressures, and of LEAK of a rate; and when an evaluation is skipped: LOW and HIGH for an invalid cold
pressure, HIGH in the tipping freeze, HOT without a valid temperature of the sample's own, and MISMATCH out of a twin pair,
where a partner is not BOUND or has no valid cold pressure, on a lifted axle, and in the tipping freeze. -/
def Obligations.EvaluationsOfASample : Prop :=
  (∀ (s : State) (p : Pos) (x : Sample),
    (x.cold = none → s.evalLow p x = s ∧ s.evalHigh p x = s) ∧ (s.frozen = true → s.evalHigh p x = s) ∧
      ((x.temp = .absent ∨ x.temp = .invalid) → s.evalHot p x = s)) ∧
  (∀ (s : State) (p : Pos) (x : Sample) (c : Nat), x.cold = some c →
    let l := s.limitsOf p
    let h : Int := s.setting .pressureHyst
    (c < l.target - l.lowAlarm → s.evalLow p x = s.evaluate p .low .alarm c) ∧
    (l.target - l.lowAlarm ≤ c → c < l.target - l.lowWarn → s.evalLow p x = s.evaluate p .low .warn c) ∧
    (l.target - l.lowAlarm ≤ c → l.target - l.lowWarn ≤ c → c < l.target - l.lowWarn + h →
      s.evalLow p x = s.evaluate p .low .band c) ∧
    (l.target - l.lowAlarm ≤ c → l.target - l.lowWarn ≤ c → l.target - l.lowWarn + h ≤ c →
      s.evalLow p x = s.evaluate p .low .clear c)) ∧
  (∀ (s : State) (p : Pos) (x : Sample) (c : Nat), x.cold = some c → s.frozen = false →
    let g := (s.limitsOf p).target + (s.limitsOf p).highWarn
    let h : Int := s.setting .pressureHyst
    ((x.code = 1023 ∨ g < c) → s.evalHigh p x = s.evaluate p .high .warn c) ∧
    (x.code ≠ 1023 → c ≤ g → c ≤ max 0 (g - h) → s.evalHigh p x = s.evaluate p .high .clear c) ∧
    (x.code ≠ 1023 → c ≤ g → max 0 (g - h) < c → s.evalHigh p x = s.evaluate p .high .band c)) ∧
  (∀ (s : State) (p : Pos) (x : Sample) (v : Int), x.temp = .celsius v →
    let l := s.limitsOf p
    let h : Int := s.setting .tempHyst
    (l.hotAlarm < v → s.evalHot p x = s.evaluate p .hot .alarm v) ∧
    (v ≤ l.hotAlarm → l.hotWarn < v → s.evalHot p x = s.evaluate p .hot .warn v) ∧
    (v ≤ l.hotAlarm → v ≤ l.hotWarn → l.hotWarn - h < v → s.evalHot p x = s.evaluate p .hot .band v) ∧
    (v ≤ l.hotAlarm → v ≤ l.hotWarn → v ≤ l.hotWarn - h → s.evalHot p x = s.evaluate p .hot .clear v)) ∧
  (∀ (s : State) (p : Pos) (x : Sample),
    let v : Int := (if x.fault then 1 else 0) + (if x.battery then 2 else 0) + (if x.code = 0 then 4 else 0)
    ((x.fault = true ∨ x.battery = true ∨ x.code = 0) → s.evalSensor p x = s.evaluate p .sensor .warn v) ∧
    ((x.fault = false ∧ x.battery = false ∧ x.code ≠ 0) → s.evalSensor p x = s.evaluate p .sensor .clear 0)) ∧
  (∀ (s : State) (p : Pos),
    (∀ c : Coil, axleKind s.layout (coilAxle c) = .twin → p ≠ outerPos c ∧ p ≠ innerPos c) → s.evalMismatch p = s) ∧
  (∀ (s : State) (c : Coil) (p q : Pos), axleKind s.layout (coilAxle c) = .twin →
    ((p = outerPos c ∧ q = innerPos c) ∨ (p = innerPos c ∧ q = outerPos c)) →
    (((s.posAt p).state ≠ .bound ∨ (s.posAt q).state ≠ .bound ∨ (s.posAt p).cold = none ∨ (s.posAt q).cold = none ∨
      s.lifted p = true ∨ s.frozen = true) → s.evalMismatch p = s) ∧
    ∀ a b : Nat, (s.posAt p).state = .bound → (s.posAt q).state = .bound → (s.posAt p).cold = some a →
      (s.posAt q).cold = some b → s.lifted p = false → s.frozen = false →
      let d : Int := ((a : Int) - b).natAbs
      let l : Int := s.setting .mismatchLimit
      let h : Int := s.setting .pressureHyst
      (l < d → s.evalMismatch p = s.evaluate (outerPos c) .mismatch .warn d) ∧
      (d ≤ l → d ≤ max 0 (l - h) → s.evalMismatch p = s.evaluate (outerPos c) .mismatch .clear d) ∧
      (d ≤ l → max 0 (l - h) < d → s.evalMismatch p = s.evaluate (outerPos c) .mismatch .band d)) ∧
  ∀ (s : State) (p : Pos) (q : Int),
    let slow : Int := s.setting .leakLimits
    let rapid : Int := s.settingHigh .leakLimits
    (rapid ≤ q → s.evalLeak p q = s.evaluate p .leak .alarm q) ∧
    (q < rapid → slow ≤ q → s.evalLeak p q = s.evaluate p .leak .warn q) ∧
    (q < rapid → q < slow → s.evalLeak p q = s.evaluate p .leak .clear q)

/-- R107, R115, R118 to R122: how an alert record moves on a result, with persistence count p ≥ 1 and clear count c ≥ 1, and
how the LEAK record moves on an ALERT telegram. An evaluation applies the move with P and C in force: a raise and an
escalation stamp the record and give it the value, the lamp and the escalation timer follow, an alarm asserts the wake
request in WATCH and DEEP WATCH (a return from CLEARING raises none: DEDUCED, log 18), and the notice of the move is raised,
with the level bit 1 for ALARM (DEDUCED, log 60). A settled telegram of a BOUND or SUSPECT position is taken and tracked,
which ends SILENT; then LOW, HIGH, HOT, SENSOR and MISMATCH are evaluated in this order and, for an ALERT telegram, LEAK. -/
def Obligations.AlertRecordMoves : Prop :=
  (∀ (r : AlertRec) (p c : Nat), 1 ≤ p → 1 ≤ c →
    (∀ res : EvalResult, res.raising = true → r.state = .clear → p = 1 →
      (r.move res p c).2 = .raised ∧ (r.move res p c).1.state = .active ∧ (r.move res p c).1.level = res.level ∧
        (r.move res p c).1.acked = false) ∧
    (∀ res : EvalResult, res.raising = true → r.state = .clear → 1 < p →
      (r.move res p c).2 = .none ∧ (r.move res p c).1.state = .pending ∧ (r.move res p c).1.pendingCount = 1) ∧
    (∀ res : EvalResult, res.raising = true → r.state = .pending → p ≤ r.pendingCount + 1 →
      (r.move res p c).2 = .raised ∧ (r.move res p c).1.state = .active ∧ (r.move res p c).1.level = res.level ∧
        (r.move res p c).1.pendingCount = 0) ∧
    (∀ res : EvalResult, res.raising = true → r.state = .pending → r.pendingCount + 1 < p →
      (r.move res p c).2 = .none ∧ (r.move res p c).1 = { r with pendingCount := r.pendingCount + 1 }) ∧
    (∀ res : EvalResult, res.raising = false → r.state = .clear → r.move res p c = (r, .none)) ∧
    (∀ res : EvalResult, res.raising = false → r.state = .pending →
      (r.move res p c).2 = .none ∧ (r.move res p c).1.state = .clear ∧ (r.move res p c).1.pendingCount = 0) ∧
    ((r.state = .active ∨ r.state = .clearing) → r.level = .warn →
      (r.move .alarm p c).2 = .escalated ∧ (r.move .alarm p c).1.state = .active ∧
        (r.move .alarm p c).1.level = .alarm ∧ (r.move .alarm p c).1.acked = false) ∧
    (r.state = .active → (r.move .warn p c) = (r, .none) ∧ (r.move .band p c) = (r, .none) ∧
      (r.level = .alarm → r.move .alarm p c = (r, .none))) ∧
    (r.state = .clearing → ∀ res : EvalResult, res ≠ .clear → (res = .alarm → r.level = .alarm) →
      r.move res p c = ({ r with state := .active, clearCount := 0 }, .none)) ∧
    (r.state = .active → 1 < c →
      r.move .clear p c = ({ r with state := .clearing, clearCount := 1 }, .none)) ∧
    (((r.state = .active ∧ c = 1) ∨ (r.state = .clearing ∧ c ≤ r.clearCount + 1)) →
      (r.move .clear p c).2 = .cleared ∧ (r.move .clear p c).1.state = .clear ∧ (r.move .clear p c).1.level = .warn ∧
        (r.move .clear p c).1.acked = false) ∧
    (r.state = .clearing → r.clearCount + 1 < c →
      r.move .clear p c = ({ r with clearCount := r.clearCount + 1 }, .none))) ∧
  (∀ r : AlertRec,
    ((r.state = .clear ∨ r.state = .pending) → r.moveAlertTelegram.2 = .raised ∧ r.moveAlertTelegram.1.state = .active ∧
      r.moveAlertTelegram.1.level = .alarm ∧ r.moveAlertTelegram.1.acked = false) ∧
    ((r.state = .active ∨ r.state = .clearing) → r.level = .warn → r.moveAlertTelegram.2 = .escalated ∧
      r.moveAlertTelegram.1.state = .active ∧ r.moveAlertTelegram.1.level = .alarm ∧
      r.moveAlertTelegram.1.acked = false) ∧
    (r.state = .active → r.level = .alarm → r.moveAlertTelegram = (r, .none)) ∧
    (r.state = .clearing → r.level = .alarm →
      r.moveAlertTelegram = ({ r with state := .active, clearCount := 0 }, .none))) ∧
  (∀ (s : State) (p : Pos) (k : AlertKind) (res : EvalResult) (v : Int),
    alertMoved s (s.evaluate p k res v) p k
      ((s.alertAt p k).move res (s.setting .persistCount) (s.setting .clearCount)) v) ∧
  (∀ (s : State) (p : Pos),
    alertMoved s (s.evalAlertTelegram p) p .leak (s.alertAt p .leak).moveAlertTelegram ((s.posAt p).leak.getD 0)) ∧
  ∀ (dt : Nat) (e : RecentEntry) (rest : List RecentEntry) (p : Pos) (s : State),
    s.intake.recent = e :: rest → e.firstArrival + 120 ≤ s.now + dt → s.holder e.payload.id = some p →
    ((s.posAt p).state = .bound ∨ (s.posAt p).state = .suspect) →
    lateRepeat (s.posAt p) e (s.now + dt) = false →
    ∃ t u x, exec (.entrySettle dt) s = .next t ∧ (u.posAt p).sample = some x ∧
      sampleShows (s.posAt p) e (s.setting .patm) (s.now + dt) x ∧ (u.posAt p).state = .bound ∧
      (u.posAt p).silent = false ∧ (u.posAt p).leak = (s.posAt p).leak ∧ (∀ q, q ≠ p → u.posAt q = s.posAt q) ∧
      (∀ k, k ≠ .silent → u.alertAt p k = s.alertAt p k) ∧
      ((s.posAt p).silent = true → (s.alertAt p .silent).state = .active → (u.alertAt p .silent).state = .clear) ∧
      ((s.posAt p).silent = false → (s.posAt p).deadline = none →
        (u.posAt p).alerts = (s.posAt p).alerts ∧ u.notices = s.notices ∧ u.eval = s.eval ∧ u.control = s.control) ∧
      u.frozen = s.frozen ∧ hostSideSame s u ∧
      (e.payload.kind ≠ .triggered → t.trigger = u.trigger ∧ t.candidates = u.candidates) ∧
      { t with trigger := u.trigger, candidates := u.candidates } =
        (if e.payload.kind = .alert
          then (((((u.evalLow p x).evalHigh p x).evalHot p x).evalSensor p x).evalMismatch p).evalAlertTelegram p
          else ((((u.evalLow p x).evalHigh p x).evalHot p x).evalSensor p x).evalMismatch p)

/-! ### Location (chapter 4) -/

/-- R15, R64, R65, R66, R67: a fire starts for the eligible request nearest the head of the queue: the request leaves the
queue, a record opens with the next free code and one attempt more, the coil is FIRING with the code, the start is logged,
and at the first attempt the UNLEARNED positions of the coil become LOCATING. -/
def Obligations.FireStartOpensARecord : Prop :=
  ∀ (dt : Nat) (r : Request) (code : BitVec 4) (s : State),
    s.trigger.queue.find? (s.elapse dt).eligible = some r → s.trigger.nextCode = some code →
    ∃ t, exec (.fireStart dt) s = .next t ∧ t.trigger.queue = s.trigger.queue.erase r ∧
      t.trigger.records = s.trigger.records ++
        [{ coil := r.coil, code := code, purpose := r.purpose, tag := r.tag, attempts := r.attempts + 1,
           start := s.now + dt, window := s.setting .responseWindow, closing := false, responses := [],
           overfull := false, outOfCare := [] }] ∧
      t.trigger.coils.get r.coil = .firing (s.now + dt) code ∧
      (∀ c, c ≠ r.coil → t.trigger.coils.get c = s.trigger.coils.get c) ∧
      t.trigger.lastStart.get r.coil = some (s.now + dt) ∧ t.trigger.log.getLast? = some (s.now + dt) ∧
      t.trigger.lastCode = code ∧
      (∀ p, (t.posAt p).state =
        if r.attempts = 0 ∧ p ∈ servedBy s.layout r.coil ∧ (s.posAt p).state = .unlearned then .locating
        else (s.posAt p).state) ∧
      (∀ p, (t.posAt p).id = (s.posAt p).id) ∧ t.candidates = s.candidates ∧ t.path = s.path ∧ hostSideSame s t

/-- R63, R66: a fire never starts out of RUN, above the fire speed limit, on a coil that is not available and IDLE or that
has a record, beside four records, within 60 ms of another start, within 300 ms of a start on the other side of the axle, or
within 2,000 ms of the fifth start before it; with no eligible request FIRE_START changes only the time (DESIGN CHOICE, log
2). The allocator issues a code of 1 to 15 that no record holds, and with at most four records there is always one. -/
def Obligations.FiresKeepTheirConditions : Prop :=
  (∀ (r : Request) (s : State), s.eligible r = true →
    s.control.op = .run ∧ s.speed ≤ s.setting .fireSpeed ∧ s.trigger.records.length < 4 ∧
      s.available r.coil = true ∧ s.trigger.coils.get r.coil = .idle ∧
      (∀ x ∈ s.trigger.records, x.coil ≠ r.coil) ∧
      (∀ x, s.trigger.log.getLast? = some x → x + 60 ≤ s.now) ∧
      (∀ x, s.trigger.lastStart.get (otherSide r.coil) = some x → x + 300 ≤ s.now) ∧
      (∀ x, 5 ≤ s.trigger.log.length → s.trigger.log.head? = some x → x + 2000 ≤ s.now)) ∧
  (∀ (dt : Nat) (s : State), (∀ r ∈ s.trigger.queue, (s.elapse dt).eligible r = false) →
    exec (.fireStart dt) s = .next (s.elapse dt)) ∧
  ∀ t : Trigger,
    (∀ c, t.nextCode = some c → c ≠ 0 ∧ ∀ r ∈ t.records, r.code ≠ c) ∧
    (t.records.length ≤ 4 → ∃ c, t.nextCode = some c)

/-- R60, R67: the burst of 10 ms is followed by RECOVERING for 250 ms and then IDLE, and only the coil's state changes. A record
of the coil becomes CLOSING 10 ms and its response window after its start, and nothing else changes. -/
def Obligations.CoilsAndRecordsRunThroughTheirPeriods : Prop :=
  (∀ (dt : Nat) (c : Coil) (start : Time) (code : BitVec 4) (s : State),
    s.trigger.coils.get c = .firing start code → start + 10 ≤ s.now + dt →
    ∃ t, exec (.burstEnd dt c) s = .next t ∧ s.coilActive c = true ∧ t.coilActive c = false ∧
      t = { s.elapse dt with trigger := { s.trigger with
        coils := s.trigger.coils.set c.val (.recovering (start + 260)) c.isLt } }) ∧
  (∀ (dt : Nat) (c : Coil) (ends : Time) (s : State),
    s.trigger.coils.get c = .recovering ends → ends ≤ s.now + dt →
    exec (.recoveringEnd dt c) s = .next { s.elapse dt with trigger := { s.trigger with
      coils := s.trigger.coils.set c.val .idle c.isLt } }) ∧
  ∀ (dt : Nat) (c : Coil) (s : State),
    exec (.openPeriodEnd dt c) s = .next { s.elapse dt with trigger := { s.trigger with
      records := s.trigger.records.map (fun r =>
        if r.coil = c ∧ r.start + 10 + r.window ≤ s.now + dt then { r with closing := true } else r) } }

/-- R71, R72, R73, R80: with no full assignment and attempts below the retry limit the classification is a retry: the request
returns to the queue with its purpose, tag and attempts, the record is freed, and no binding changes. At or above the limit it
is final: on a TWIN axle the assigned slot that holds the only responder is confirmed, and every other assigned slot fails: a
LOCATING one becomes UNLEARNED, a DETACHED one loses its ID, and any other keeps its binding. The alert records of a LOCATING
slot stay, but for the MISMATCH record of an outer one beside a DETACHED slot (R8). Then each claim that names an ID
of the coil's positions becomes CONFLICT, and their recheck flags are cleared. A partial answer is judged slot by slot, also
where the other slot carries an out-of-care mark (DEDUCED, log 17). -/
def Obligations.ClassificationRetries : Prop :=
  (∀ (dt : Nat) (r : FireRec) (s : State), s.control.op = .run → s.available r.coil = true → closesBy s dt r →
    fullAssignment s.layout (s.setting .twinMargin) r = none → r.attempts < s.setting .retryLimit →
    (∀ q ∈ s.trigger.queue, q.coil ≠ r.coil) →
    ∃ t, exec (.classification dt r.coil) s = .next t ∧ t.trigger.records = recordsWithout s r.coil ∧
      t.trigger.queue = s.trigger.queue ++
        [{ coil := r.coil, purpose := r.purpose, attempts := r.attempts, tag := r.tag }] ∧
      t.positions = s.positions ∧ t.notices = s.notices ∧ t.path = s.path ∧ hostSideSame s t) ∧
  ∀ (dt : Nat) (r : FireRec) (s : State), bindingsOk s → closesBy s dt r →
    fullAssignment s.layout (s.setting .twinMargin) r = none → s.setting .retryLimit ≤ r.attempts →
    ∃ t, exec (.classification dt r.coil) s = .next t ∧ t.trigger.records = recordsWithout s r.coil ∧
      t.trigger.queue = s.trigger.queue ∧ hostSideSame s t ∧
      ∀ p : Pos,
        (answersAlone s r p → (t.posAt p).state = .bound ∧ (t.posAt p).claim = none ∧
          (t.posAt p).id = (s.posAt p).id ∧ (t.posAt p).epoch = (s.posAt p).epoch ∧
          (t.posAt p).sample = (s.posAt p).sample) ∧
        (¬answersAlone s r p → p ∈ assignedSlots s.layout r → (s.posAt p).state = .locating →
          t.posAt p = { s.posAt p with state := .unlearned, recheck := false, alerts := (t.posAt p).alerts } ∧
          (∀ k, k ≠ .mismatch → t.alertAt p k = s.alertAt p k) ∧
          ((p ≠ outerPos r.coil ∨ ∀ q ∈ assignedSlots s.layout r, (s.posAt q).state ≠ .detached) →
            (t.posAt p).alerts = (s.posAt p).alerts)) ∧
        (¬answersAlone s r p → p ∈ assignedSlots s.layout r → (s.posAt p).state = .detached →
          gaveUpId (s.posAt p) (t.posAt p)) ∧
        (¬answersAlone s r p →
          (p ∉ assignedSlots s.layout r ∨ ((s.posAt p).state ≠ .locating ∧ (s.posAt p).state ≠ .detached)) →
          (¬waitsOn s r.coil p → keepsBinding s t p ∧ (t.posAt p).claim = (s.posAt p).claim) ∧
          (waitsOn s r.coil p → claimSettled s t p)) ∧
        (p ∈ servedBy s.layout r.coil → (t.posAt p).recheck = false) ∧
        (p ∉ servedBy s.layout r.coil → ¬waitsOn s r.coil p → t.posAt p = s.posAt p)

/-- R71, R79, R80: on a SINGLE axle one responder that no position holds is bound at the outer slot: it becomes BOUND with the
ID, its epoch rises by one, its sensor fields are empty, the candidate entry of the ID goes and the record is freed. Where the
slot held another ID, that ID is dropped, and a claim that names it becomes CONFLICT. On a TWIN axle two responders that no
position holds are bound at slots that hold no ID, the stronger answer at the inner one. -/
def Obligations.ClassificationBindsAnUnheldSensor : Prop :=
  (∀ (dt : Nat) (r : FireRec) (x : Response) (s : State), singleAnswer s dt r x →
    s.holder x.id = none → (s.posAt (outerPos r.coil)).id = none →
    ∃ t, exec (.classification dt r.coil) s = .next t ∧ t.trigger.records = recordsWithout s r.coil ∧
      tookId (s.posAt (outerPos r.coil)) (t.posAt (outerPos r.coil)) x.id ∧
      (∀ p, p ≠ outerPos r.coil → keepsBinding s t p) ∧
      (∀ c ∈ t.candidates, c.id ≠ x.id) ∧ t.trigger.queue = s.trigger.queue ∧ hostSideSame s t) ∧
  (∀ (dt : Nat) (r : FireRec) (x : Response) (y : SensorId) (s : State), bindingsOk s → singleAnswer s dt r x →
    s.holder x.id = none → (s.posAt (outerPos r.coil)).id = some y →
    ∃ t, exec (.classification dt r.coil) s = .next t ∧ t.trigger.records = recordsWithout s r.coil ∧
      tookId (s.posAt (outerPos r.coil)) (t.posAt (outerPos r.coil)) x.id ∧
      (∀ p, p ≠ outerPos r.coil →
        ((s.posAt p).claim ≠ some y → keepsBinding s t p ∧ (t.posAt p).claim = (s.posAt p).claim) ∧
        ((s.posAt p).claim = some y → claimSettled s t p)) ∧
      (∀ c ∈ t.candidates, c.id ≠ x.id) ∧ t.trigger.queue = s.trigger.queue ∧ hostSideSame s t) ∧
  ∀ (dt : Nat) (r : FireRec) (x y : Response) (s : State), twinAnswer s dt r x y →
    s.holder x.id = none → s.holder y.id = none →
    (s.posAt (innerPos r.coil)).id = none → (s.posAt (outerPos r.coil)).id = none →
    ∃ t, exec (.classification dt r.coil) s = .next t ∧ t.trigger.records = recordsWithout s r.coil ∧
      tookId (s.posAt (innerPos r.coil)) (t.posAt (innerPos r.coil)) x.id ∧
      tookId (s.posAt (outerPos r.coil)) (t.posAt (outerPos r.coil)) y.id ∧
      (∀ p, p ≠ innerPos r.coil → p ≠ outerPos r.coil → keepsBinding s t p) ∧
      (∀ c ∈ t.candidates, c.id ≠ x.id ∧ c.id ≠ y.id) ∧ t.trigger.queue = s.trigger.queue ∧ hostSideSame s t

/-- R74 to R78, R80: the outcomes for a responder that a position holds. On a SINGLE axle the outer slot that holds it is
confirmed: BOUND with the same ID, epoch and sample, a SUSPECT one no longer SILENT, its deadline armed where R96 arms it, so
that a BOUND one with an armed deadline keeps it also where it has been reached (DEDUCED, log 50, against the last sentence of
R97); a claim that names the ID becomes CONFLICT. On a TWIN axle whose two answers are the slots' own IDs the wrong way round the
slots exchange them. On a SINGLE axle the slot exchanges with a holder whose claim names the slot's ID; a slot without an ID
takes the ID from its holder, which becomes UNLEARNED; and a slot with an ID claims the responder: where an available coil
serves the holder a RECHECK of that coil is queued and the holder's flag is set, and where the holder is a spare or its coil
is not available the slot becomes CONFLICT and keeps the claim. -/
def Obligations.ClassificationConfirms : Prop :=
  (∀ (dt : Nat) (r : FireRec) (x : Response) (s : State), singleAnswer s dt r x →
    (s.posAt (outerPos r.coil)).id = some x.id →
    ∃ t, exec (.classification dt r.coil) s = .next t ∧ t.trigger.records = recordsWithout s r.coil ∧
      (t.posAt (outerPos r.coil)).state = .bound ∧ (t.posAt (outerPos r.coil)).id = some x.id ∧
      (t.posAt (outerPos r.coil)).epoch = (s.posAt (outerPos r.coil)).epoch ∧
      (t.posAt (outerPos r.coil)).sample = (s.posAt (outerPos r.coil)).sample ∧
      (t.posAt (outerPos r.coil)).claim = none ∧ (t.posAt (outerPos r.coil)).recheck = false ∧
      ((s.posAt (outerPos r.coil)).state = .suspect → (t.posAt (outerPos r.coil)).silent = false) ∧
      (t.posAt (outerPos r.coil)).deadline =
        (if (s.posAt (outerPos r.coil)).state = .suspect ∨ (s.posAt (outerPos r.coil)).state = .detached ∨
            (s.posAt (outerPos r.coil)).deadline = none
          then (if s.control.op = .run then some (s.now + dt) else none) else (s.posAt (outerPos r.coil)).deadline) ∧
      (∀ p, p ≠ outerPos r.coil →
        ((s.posAt p).claim ≠ some x.id → t.posAt p = s.posAt p) ∧
        ((s.posAt p).claim = some x.id → claimSettled s t p)) ∧
      t.trigger.queue = s.trigger.queue ∧ hostSideSame s t) ∧
  (∀ (dt : Nat) (r : FireRec) (x y : Response) (s : State), bindingsOk s → twinAnswer s dt r x y →
    (s.posAt (innerPos r.coil)).id = some y.id → (s.posAt (outerPos r.coil)).id = some x.id →
    (∀ p, p ≠ innerPos r.coil → p ≠ outerPos r.coil →
      (s.posAt p).claim ≠ some x.id ∧ (s.posAt p).claim ≠ some y.id) →
    ∃ t, exec (.classification dt r.coil) s = .next t ∧ t.trigger.records = recordsWithout s r.coil ∧
      tookId (s.posAt (innerPos r.coil)) (t.posAt (innerPos r.coil)) x.id ∧
      tookId (s.posAt (outerPos r.coil)) (t.posAt (outerPos r.coil)) y.id ∧
      (∀ p, p ≠ innerPos r.coil → p ≠ outerPos r.coil → keepsBinding s t p) ∧
      t.trigger.queue = s.trigger.queue ∧ hostSideSame s t) ∧
  (∀ (dt : Nat) (r : FireRec) (x : Response) (q : Pos) (y : SensorId) (s : State), bindingsOk s →
    singleAnswer s dt r x → (s.posAt (outerPos r.coil)).id = some y → (s.posAt q).id = some x.id → y ≠ x.id →
    (s.posAt q).claim = some y → (∀ p, p ≠ outerPos r.coil → p ≠ q → (s.posAt p).claim ≠ some y) →
    ∃ t, exec (.classification dt r.coil) s = .next t ∧ t.trigger.records = recordsWithout s r.coil ∧
      tookId (s.posAt (outerPos r.coil)) (t.posAt (outerPos r.coil)) x.id ∧ tookId (s.posAt q) (t.posAt q) y ∧
      (t.posAt (outerPos r.coil)).recheck = false ∧
      (∀ p, p ≠ outerPos r.coil → p ≠ q → keepsBinding s t p) ∧
      t.trigger.queue = s.trigger.queue ∧ hostSideSame s t) ∧
  (∀ (dt : Nat) (r : FireRec) (x : Response) (q : Pos) (s : State), bindingsOk s → singleAnswer s dt r x →
    (s.posAt (outerPos r.coil)).id = none → (s.posAt q).id = some x.id →
    ∃ t, exec (.classification dt r.coil) s = .next t ∧ t.trigger.records = recordsWithout s r.coil ∧
      tookId (s.posAt (outerPos r.coil)) (t.posAt (outerPos r.coil)) x.id ∧ gaveUpId (s.posAt q) (t.posAt q) ∧
      (∀ p, p ≠ outerPos r.coil → p ≠ q → keepsBinding s t p) ∧
      t.trigger.queue = s.trigger.queue ∧ hostSideSame s t) ∧
  ∀ (dt : Nat) (r : FireRec) (x : Response) (q : Pos) (y : SensorId) (s : State), bindingsOk s →
    singleAnswer s dt r x → s.control.op = .run → (s.posAt (outerPos r.coil)).id = some y →
    (s.posAt q).id = some x.id → y ≠ x.id → (∀ p, (s.posAt p).claim ≠ some y) →
    ((∃ d, sideCoil q = some d ∧ s.available d = true ∧ ∀ z ∈ s.trigger.queue, z.coil ≠ d) →
      ∃ t d, exec (.classification dt r.coil) s = .next t ∧ t.trigger.records = recordsWithout s r.coil ∧
        sideCoil q = some d ∧
        t.trigger.queue = s.trigger.queue ++ [{ coil := d, purpose := .recheck, attempts := 0, tag := r.tag }] ∧
        (t.posAt q).recheck = true ∧ (t.posAt (outerPos r.coil)).claim = some x.id ∧
        (t.posAt (outerPos r.coil)).alerts = (s.posAt (outerPos r.coil)).alerts ∧ sameBindings s t ∧
        t.notices = s.notices ∧ hostSideSame s t) ∧
    ((sideCoil q = none ∨ ∃ d, sideCoil q = some d ∧ s.available d = false) →
      ∃ t, exec (.classification dt r.coil) s = .next t ∧ t.trigger.records = recordsWithout s r.coil ∧
        t.trigger.queue = s.trigger.queue ∧ (t.posAt (outerPos r.coil)).state = .conflict ∧
        (t.posAt (outerPos r.coil)).claim = some x.id ∧ (t.posAt (outerPos r.coil)).id = some y ∧
        (t.posAt (outerPos r.coil)).epoch = (s.posAt (outerPos r.coil)).epoch ∧
        (∀ k, (t.alertAt (outerPos r.coil) k).state = .clear) ∧
        (∀ p, p ≠ outerPos r.coil → t.posAt p = s.posAt p) ∧ hostSideSame s t)

/-! ### Timers (chapters 5, 6, 7, 8) -/

/-- R97, R98, R116: the deadline of a BOUND position that has been reached becomes absent, and the position SUSPECT and
SILENT: a CLEAR SILENT record becomes ACTIVE at WARN with the value E, and ALERT RAISED is raised (its level bit is 1 for
ALARM: DEDUCED, log 60). Where a PERSISTENT candidate has the home lane as its strongest lane and the position's coil is
available, the trigger queue takes a LOCATE with tag 0 for the coil; otherwise it stays. In any other state the deadline
becomes absent and nothing else changes. -/
def Obligations.SilenceDeadlineExpires : Prop :=
  ∀ (dt : Nat) (p : Pos) (s : State), (s.elapse dt).deadlineReached (s.posAt p) = true →
    ((s.posAt p).state = .bound →
      ∃ t, exec (.silenceDeadlineExpiry dt p) s = .next t ∧ (t.posAt p).state = .suspect ∧ (t.posAt p).silent = true ∧
        (t.posAt p).deadline = none ∧ (t.posAt p).id = (s.posAt p).id ∧ (t.posAt p).sample = (s.posAt p).sample ∧
        ((s.alertAt p .silent).state = .clear → (t.alertAt p .silent).state = .active ∧
          (t.alertAt p .silent).level = .warn ∧ (t.alertAt p .silent).stamp = s.sweep.count ∧
          (t.alertAt p .silent).acked = false ∧ (t.alertAt p .silent).value = (s.posAt p).interval.getD 0 ∧
          alertNoticed s t (alertNoticeOf s .alertRaised p .silent .warn ((s.posAt p).interval.getD 0))) ∧
        (∀ c : Coil, sideCoil p = some c → s.control.op = .run → s.available c = true →
          (∃ e ∈ s.candidates, e.persistent = true ∧ (s.posAt p).homeLane = some e.strongest) →
          t.trigger = { s.trigger with queue := withLocate s.trigger.queue c }) ∧
        ((sideCoil p = none ∨ (∃ c : Coil, sideCoil p = some c ∧ s.available c = false) ∨
          ∀ e ∈ s.candidates, e.persistent = true → (s.posAt p).homeLane ≠ some e.strongest) →
          t.trigger = s.trigger) ∧
        (∀ q, q ≠ p → t.posAt q = s.posAt q) ∧ t.candidates = s.candidates ∧ hostSideSame s t) ∧
    ((s.posAt p).state ≠ .bound →
      exec (.silenceDeadlineExpiry dt p) s = .next ((s.elapse dt).modPos p (fun r => { r with deadline := none })))

/-- R123, R127, R129: the tipping settle timer becomes IDLE at its end, a RUNNING escalation timer becomes EXPIRED and
drives the buzzer, and a half-period of FLASH toggles the lamp for the next 500 ms, counted from the time the toggle is taken
(DESIGN CHOICE, log 32). -/
def Obligations.TimersOfTheEvaluationUnit : Prop :=
  (∀ (dt : Nat) (e : Time) (s : State), s.eval.settleEnd = some e → e ≤ s.now + dt →
    exec (.tippingSettleEnd dt) s = .next { s.elapse dt with eval := { s.eval with settleEnd := none } }) ∧
  (∀ (dt : Nat) (e : Time) (s : State), s.eval.escalation = .running e → e ≤ s.now + dt →
    ∃ t, exec (.escalationExpiry dt) s = .next t ∧ t.buzzer = true ∧
      t = { s.elapse dt with eval := { s.eval with escalation := .expired } }) ∧
  ∀ (dt : Nat) (d : Bool) (e : Time) (s : State), s.eval.lamp = .flash d e → e ≤ s.now + dt →
    ∃ t, exec (.lampFlashHalfPeriod dt) s = .next t ∧ t.lampDriven = !d ∧
      t = { s.elapse dt with eval := { s.eval with lamp := .flash (!d) (s.now + dt + 500) } }

/-- R133, R134, R135: at an expiry the sweep count rises by one and the timer reloads the period, counted from the time the
expiry is taken (DESIGN CHOICE, log 32); with a publication IN PROGRESS the expiry only counts as skipped, and with none a
publication starts with the next number, the column after the head and the back page. -/
def Obligations.SweepTimerExpires : Prop :=
  ∀ (dt : Nat) (e : Time) (s : State), s.sweep.timer = some e → e ≤ s.now + dt →
    (∀ q, s.sweep.publication = some q →
      exec (.sweepExpiry dt) s = .next { s.elapse dt with sweep := { s.sweep with
        timer := some (s.now + dt + 1000 * s.setting .sweepPeriod), count := s.sweep.count + 1,
        skipped := min 65535 (s.sweep.skipped + 1) } }) ∧
    (s.sweep.publication = none →
      ∃ t q, exec (.sweepExpiry dt) s = .next t ∧ t.sweep.publication = some q ∧ q.number = s.sweep.number + 1 ∧
        q.stamp = s.sweep.count + 1 ∧ q.column = (s.sweep.head + 1) % s.setting .historyDepth ∧
        q.page = s.sweep.front.other ∧ q.groups = 0 ∧ q.kept = [] ∧ t.sweep.number = s.sweep.number + 1 ∧
        t.sweep.count = s.sweep.count + 1 ∧ t.sweep.skipped = s.sweep.skipped ∧ t.sweep.trend = [] ∧
        t.sweep.timer = some (s.now + dt + 1000 * s.setting .sweepPeriod) ∧
        t.sweep.written = (if s.sweep.written = s.setting .historyDepth then s.setting .historyDepth - 1
          else s.sweep.written) ∧
        t.sweep.front = s.sweep.front ∧ t.sweep.published = s.sweep.published ∧
        (∀ c, c ∈ t.candidates ↔ c ∈ s.candidates ∧
          (c.claimed = true ∨ s.now + dt ≤ c.lastHeard + 60000 * s.setting .ageLimit)) ∧
        t.positions = s.positions ∧ t.mem = s.mem ∧ t.snoop = s.snoop ∧ t.control = s.control ∧ t.pending = s.pending)

/-- R157: a window start in WATCH or DEEP WATCH opens a window of 2,000 ms and fixes the next start 30 s or 120 s later, both
counted from the time the start is taken (DESIGN CHOICE, log 32); the end of a window lowers every enable; the deep-watch
expiry enters DEEP WATCH and moves neither. -/
def Obligations.ListenCycle : Prop :=
  (∀ (dt : Nat) (e : Time) (s : State), (s.control.op = .watch ∨ s.control.op = .deepWatch) →
    s.control.nextWindow = some e → e ≤ s.now + dt →
    ∃ t, exec (.listenWindowStart dt) s = .next t ∧ t.control.windowEnd = some (s.now + dt + 2000) ∧
      t.control.nextWindow = some (s.now + dt + (if s.control.op = .watch then 30000 else 120000)) ∧
      (∀ l, s.masked l = false → (s.intake.lanes.get l).state = .off →
        (t.intake.lanes.get l).state = .settling (s.now + dt + 20)) ∧
      t.control.op = s.control.op ∧ { t with now := s.now, intake := s.intake, control := s.control } = s) ∧
  (∀ (dt : Nat) (e : Time) (s : State), (s.control.op = .watch ∨ s.control.op = .deepWatch) →
    s.control.windowEnd = some e → e ≤ s.now + dt →
    ∃ t, exec (.listenWindowEnd dt) s = .next t ∧ t.control.windowEnd = none ∧
      t.control.nextWindow = s.control.nextWindow ∧ (∀ l, (t.intake.lanes.get l).state = .off) ∧
      t.intake.recent = s.intake.recent ∧ { t with now := s.now, intake := s.intake, control := s.control } = s) ∧
  ∀ (dt : Nat) (e : Time) (s : State), s.control.op = .watch → s.control.deepEnd = some e → e ≤ s.now + dt →
    exec (.deepWatchExpiry dt) s =
      .next { s.elapse dt with control := { s.control with op := .deepWatch, deepEnd := none } }

/-! ### Publication and the outbound queue (chapters 7, 9) -/

/-- R34, R35, R58, R69, R95, R104, R136, R137, R138, R186, R187: with every earlier write added and more than 8 entries free,
the next group is captured: its first write joins the tail of the queue and the rest are kept, at the offsets and with the
contents of 11.3 and 11.4. A position's group is its history cell and its status entry; its missed count is set to 0 and its
ACTIVE and CLEARING records join the detail items. Then come the candidate section, the limit mirror, and the header with the
detail list: its capture sets the frame counts, the merged and the stale counts to 0 and updates the quiet counts and flags,
which the header shows as they then stand (DESIGN CHOICE, log 19), the quiet flag of lane A lowest (DEDUCED, log 57) and the
bytes of word 04 from byte 0 up (DEDUCED, log 59). The age of a sample in a status entry is truncated to whole seconds
(DESIGN CHOICE, log 51). -/
def Obligations.PositionGroupIsCaptured : Prop :=
  (∀ (dt : Nat) (q : Publication) (p : Pos) (s : State), captureReady s q (cellOffset q.column p) → q.groups = p.val →
    ∃ t r w, exec (.groupCapture dt) s = .next t ∧ t.sweep.publication = some r ∧ groupTaken q r ∧
      r.kept.map KeptWrite.offset =
        [cellOffset q.column p + 4] ++ (List.range 8).map (fun i => q.page.base + 0x40 + 0x20 * p.val + 4 * i) ∧
      t.path.queue = s.path.queue ++
        [{ access := .write w, offset := cellOffset q.column p, origin := .publish }] ∧
      cellShows (s.posAt p) q.stamp w ((r.kept.map KeptWrite.data).getD 0 0) ∧
      entryShows s p (s.now + dt) (fun i => (r.kept.map KeptWrite.data).getD (i + 1) 0) ∧
      r.items = q.items ++ (alertKinds.filter (fun k => (s.alertAt p k).standing)).map (fun k =>
        { position := p, kind := k, level := (s.alertAt p k).level, stamp := (s.alertAt p k).stamp,
          value := (s.alertAt p k).value }) ∧
      t.posAt p = { s.posAt p with missed := 0 } ∧ (∀ x, x ≠ p → t.posAt x = s.posAt x) ∧
      { t with now := s.now, positions := s.positions, path := s.path, sweep := s.sweep } = s) ∧
  (∀ (dt : Nat) (q : Publication) (s : State), captureReady s q (q.page.base + 0x380) → q.groups = 26 →
    ∃ t r w, exec (.groupCapture dt) s = .next t ∧ t.sweep.publication = some r ∧ groupTaken q r ∧
      t.path.queue = s.path.queue ++ [{ access := .write w, offset := q.page.base + 0x380, origin := .publish }] ∧
      w = BitVec.ofNat 32 s.candidates.length ∧
      r.kept.map KeptWrite.offset =
        (List.range (7 * s.candidates.length)).map (fun i => q.page.base + 0x384 + 4 * i) ∧
      (∀ i, i < s.candidates.length → ∀ e, s.candidates[i]? = some e →
        candidateShows e (fun j => (r.kept.map KeptWrite.data).getD (7 * i + j) 0)) ∧
      { t with now := s.now, path := s.path, sweep := s.sweep } = s) ∧
  (∀ (dt : Nat) (q : Publication) (s : State), captureReady s q (q.page.base + 0x704) → q.groups = 27 →
    ∃ t r w, exec (.groupCapture dt) s = .next t ∧ t.sweep.publication = some r ∧ groupTaken q r ∧
      t.path.queue = s.path.queue ++ [{ access := .write w, offset := q.page.base + 0x704, origin := .publish }] ∧
      (∀ i : Fin 16, bits w i.val 1 = (s.eval.limits.get i).loaded.toNat) ∧ bits w 16 16 = 0 ∧
      r.kept.map KeptWrite.offset = (List.range 32).map (fun i => q.page.base + 0x708 + 4 * i) ∧
      (∀ i : Fin 16, limitShows (s.eval.limits.get i) ((r.kept.map KeptWrite.data).getD (2 * i.val) 0)
        ((r.kept.map KeptWrite.data).getD (2 * i.val + 1) 0)) ∧
      { t with now := s.now, path := s.path, sweep := s.sweep } = s) ∧
  ∀ (dt : Nat) (q : Publication) (s : State), captureReady s q q.page.base → q.groups = 28 →
    ∃ t r w, exec (.groupCapture dt) s = .next t ∧ t.sweep.publication = some r ∧ groupTaken q r ∧
      pendingWrite t.path.queue q.page.base = some w ∧
      r.kept.map KeptWrite.offset = (List.range 15).map (fun i => q.page.base + 4 + 4 * i) ++
        (List.range (1 + 2 * min 14 q.items.length)).map (fun i => q.page.base + 0x788 + 4 * i) ∧
      headerShows s q (s.now + dt) (.tabulate (fun l => (t.intake.lanes.get l).quiet))
        (fun i => (w :: r.kept.map KeptWrite.data).getD i 0) ∧
      bits ((r.kept.map KeptWrite.data).getD 15 0) 0 8 = min 14 q.items.length ∧
      bits ((r.kept.map KeptWrite.data).getD 15 0) 8 24 = (decide (14 < q.items.length)).toNat ∧
      (∀ i, i < min 14 q.items.length → ∀ x, q.items[i]? = some x →
        let u := (r.kept.map KeptWrite.data).getD (16 + 2 * i) 0
        bits u 0 8 = x.position.val ∧ bits u 8 3 = x.kind.num ∧ bits u 11 5 = (x.level == .alarm).toNat ∧
          bits u 16 16 = x.stamp.toNat ∧ (r.kept.map KeptWrite.data).getD (17 + 2 * i) 0 = BitVec.ofInt 32 x.value) ∧
      (∀ l, t.intake.lanes.get l = laneCaptured (s.intake.lanes.get l) (s.masked l)) ∧ t.intake.merged = 0 ∧
      t.intake.recent = s.intake.recent ∧ t.trigger = { s.trigger with stale := 0 } ∧ t.positions = s.positions ∧
      t.candidates = s.candidates ∧ t.mem = s.mem ∧ t.snoop = s.snoop ∧ t.eval = s.eval ∧ t.pending = s.pending

/-- R136, R168: a kept write of the publication whose offset is pending nowhere joins the tail of the queue while more than 8
entries are free; with 40 or more entries queued it stays kept. That one command offers exactly the first kept write is the
model's (DESIGN CHOICE, log 23). -/
def Obligations.KeptWriteIsOfferedAgain : Prop :=
  ∀ (dt : Nat) (q : Publication) (w : KeptWrite) (ws : List KeptWrite) (s : State), s.control.refHup = true →
    s.control.op ≠ .reset → s.sweep.publication = some q → q.kept = w :: ws →
    pendingWrite s.path.queue w.offset = none →
    (s.path.queue.length ≤ 39 →
      exec (.keptEntryReoffer dt) s = .next { s.elapse dt with
        sweep := { s.sweep with publication := some { q with kept := ws } }
        path := { s.path with queue := s.path.queue ++
          [{ access := .write w.data, offset := w.offset, origin := .publish }] } }) ∧
    (40 ≤ s.path.queue.length → exec (.keptEntryReoffer dt) s = .next (s.elapse dt))

/-- R163, R167, R172: in a gap the head of the queue goes to the memory bus at the base in force, and the next entry starts a
new wait; memory is unchanged until the access completes (DESIGN CHOICE, log 22). A head that has waited 4 µs is overdue: the
command marks it whenever the queue is not empty (DESIGN CHOICE, log 28). A host transaction that starts while a part access is
on the bus is held with HWAIT_N asserted; one that starts beside an overdue head is held and the head is issued; one answered
with zeros needs no memory and is not held. When the access on the bus completes, the held transaction is carried as translated
at its start and HWAIT_N is released; a held read returns the whole word of memory, whatever its byte enables (DESIGN CHOICE, log
44). But an overdue head behind the access on the bus at its start goes first (DEDUCED, log 30), after the completion of the
access has been reported, or without a report where it was abandoned. -/
def Obligations.HeadIsIssuedInAGap : Prop :=
  (∀ (dt : Nat) (e : QEntry) (rest : List QEntry) (s : State), s.path.queue = e :: rest → s.path.bus = none →
    s.path.held = none →
    ∃ t b, exec (.headIssue dt) s = .next t ∧ t.path.bus = some b ∧ b.entry = e ∧ b.addr = s.windowBase + e.offset ∧
      b.reported = true ∧ t.path.queue = rest ∧ t.path.overdue = false ∧ t.mem = s.mem ∧
      { t with now := s.now, path := s.path, ports := s.ports } = s) ∧
  (∀ (dt : Nat) (s : State), s.path.queue ≠ [] →
    ∃ t, exec (.headOverdue dt) s = .next t ∧ t.path.overdue = true ∧ t.path.queue = s.path.queue ∧
      { t with now := s.now, path := s.path } = s) ∧
  (∀ (c : Instr) (dt : Nat) (x : HostTxn) (y : BusTxn) (s : State), presented c s = some (dt, x) → s.path.held = none →
    s.control.refHup = true → s.control.op ≠ .reset → s.resolve x = some y →
    (s.path.bus.isSome = true → ∃ t, exec c s = .next t ∧ t.hwaitAsserted = true ∧
      t = { s.elapse dt with path := { s.path with held := some y, owed := s.path.overdue } }) ∧
    ∀ e rest, s.path.bus = none → s.path.overdue = true → s.path.queue = e :: rest →
      ∃ t, exec c s = .next t ∧ t.hwaitAsserted = true ∧
        t.path = { s.path with
          held := some y, queue := rest, overdue := false
          bus := some { entry := e, addr := s.windowBase + e.offset, reported := true } } ∧
        { t with now := s.now, path := s.path, ports := s.ports } = s) ∧
  (∀ (c : Instr) (dt : Nat) (x : HostTxn) (s : State), presented c s = some (dt, x) → s.path.held = none →
    s.resolve x = none →
    exec c s = .next { s.elapse dt with ports := { s.ports with hostData := List.replicate x.wordCount 0 } }) ∧
  (∀ (dt : Nat) (b : Issued) (y : BusTxn) (s : State), s.path.bus = some b → s.path.held = some y →
    s.path.waiting = [] → s.path.owed = false →
    ∃ t u, exec (.partAccessComplete dt) s = .next t ∧
      exec (.partAccessComplete dt) { s with path := { s.path with held := none } } = .next u ∧
      t.hwaitAsserted = false ∧ t = u.carry y ∧
      (∀ addr offset en n, y = .read addr offset en n →
        t = { u with ports := {
          hostData := (List.range n).map (fun i =>
            (offset.bind (fun o => pendingWrite u.path.queue (o + 4 * i))).getD (readWord u.mem (addr + 4 * i)))
          memory := some (.read addr en n) } }) ∧
      ∀ addr offset ws, y = .write .passed addr offset ws →
        t = { u with mem := writeWords u.mem addr ws, ports := { u.ports with memory := some (.write addr ws) } }) ∧
  ∀ (dt : Nat) (b : Issued) (y : BusTxn) (e : QEntry) (rest : List QEntry) (s : State), s.path.bus = some b →
    s.path.held = some y → s.control.refHup = true → s.control.op ≠ .reset →
    s.path.owed = true → s.path.overdue = true → s.path.queue = e :: rest →
    ∃ t u, exec (.partAccessComplete dt) s = .next t ∧
      exec (.partAccessComplete dt) { s with path := { s.path with held := none } } = .next u ∧
      ((b.reported = false ∨ b.entry.origin = .notice) → u.path.queue = e :: rest ∧ u.path.overdue = true) ∧
      ∀ f more, u.path.queue = f :: more → u.path.overdue = true →
        t.hwaitAsserted = true ∧ { t with ports := u.ports } = { u with path := { u.path with
          held := some y, owed := false, queue := more, overdue := false
          bus := some { entry := f, addr := s.windowBase + f.offset, reported := true } } }

/-- R167: when the memory completes a part WRITE, the word stands in memory, least significant byte at the lowest address,
and every other byte reads as before; the bus is free. -/
def Obligations.PartWriteReachesMemory : Prop :=
  ∀ (dt : Nat) (b : Issued) (d : Word) (s : State), s.path.bus = some b → b.entry.access = .write d →
    s.path.held = none → Memory.wf s.mem = true →
    ∃ t, exec (.partAccessComplete dt) s = .next t ∧ readWord t.mem b.addr = d ∧
      memRead t.mem b.addr = d.extractLsb' 0 8 ∧ memoryOutside s t b.addr 4 ∧ t.path.bus = none ∧
      t.now = s.now + dt ∧ t.pins = s.pins ∧ t.pending = s.pending

/-- R183, R185: when the last write of the slot that the completed index names has been taken, the index advances by one, and
the attention state is asserted if the mask has the bit of the notice's category, of which ALERT has bit 0 (DEDUCED, log 57). -/
def Obligations.NoticeCompletes : Prop :=
  ∀ (dt : Nat) (b : Issued) (d : Word) (n : Notice) (rest : List Notice) (s : State), s.path.bus = some b →
    b.entry = { access := .write d, offset := 0x2000 + s.notices.completed.toNat * 16 + 12, origin := .notice } →
    b.reported = true → s.path.held = none → s.notices.inRing = n :: rest →
    ∃ t, exec (.partAccessComplete dt) s = .next t ∧ t.notices.completed = s.notices.completed + 1 ∧
      t.notices.inRing = rest ∧ t.notices.write = s.notices.write ∧
      t.notices.attention = (s.notices.attention || (s.copy .attentionMask).getLsbD n.kind.category) ∧
      t.positions = s.positions ∧ t.sweep = s.sweep ∧ t.snoop = s.snoop ∧ t.pending = s.pending

/-- R139, R140, R145, R146: the completion of the last write of a publication makes the flip attempt: the head moves to the
column and the written count rises to at most D, unless the history was restarted, every leak rate becomes unavailable, and
the publication ends. With the hold RELEASED or OVERRIDDEN the back page becomes front and the published flag is set; a HELD
hold defers the flip twice, and at the third it gives way: the flip is made, the hold becomes OVERRIDDEN and HOLD OVERRIDDEN
is raised. With K below D and K + 1 columns written the trend reads are set up. When the second word of a trend read
returns, the leak rate becomes the fall per minute where the old cell is valid, of the same epoch and some sweeps old, and the
position is BOUND or SUSPECT with a valid cold pressure, and LEAK is evaluated from it; otherwise only the read ends. -/
def Obligations.LastWriteFlipsThePage : Prop :=
  (∀ (dt : Nat) (b : Issued) (d : Word) (q : Publication) (s : State), flipDue s b d q →
    (s.sweep.hold ≠ .held →
      ∃ t, exec (.partAccessComplete dt) s = .next t ∧ attemptMade s t b d q ∧ t.sweep.front = s.sweep.front.other ∧
        t.sweep.published = true ∧ t.sweep.deferredFlip = false ∧ t.sweep.deferredCount = 0 ∧
        t.sweep.hold = s.sweep.hold ∧ trendSetUp s t q t.path.queue ∧ t.notices = s.notices) ∧
    (s.sweep.hold = .held → s.sweep.deferredCount < 2 →
      ∃ t, exec (.partAccessComplete dt) s = .next t ∧ attemptMade s t b d q ∧ t.sweep.front = s.sweep.front ∧
        t.sweep.published = s.sweep.published ∧ t.sweep.deferredFlip = true ∧
        t.sweep.deferredCount = s.sweep.deferredCount + 1 ∧ t.sweep.hold = .held ∧ trendSetUp s t q t.path.queue ∧
        t.notices = s.notices) ∧
    (s.sweep.hold = .held → 2 ≤ s.sweep.deferredCount → s.notices.write + 1 ≠ s.readIndex →
      ∃ t n, exec (.partAccessComplete dt) s = .next t ∧ attemptMade s t b d q ∧ t.sweep.front = s.sweep.front.other ∧
        t.sweep.published = true ∧ t.sweep.deferredFlip = false ∧ t.sweep.deferredCount = 0 ∧
        t.sweep.hold = .overridden ∧ trendSetUp s t q (t.path.queue.drop 4) ∧
        t.notices = { s.notices with write := s.notices.write + 1, inRing := s.notices.inRing ++ [n] } ∧
        n.kind = .holdOverridden ∧ n.position = none ∧ n.value = BitVec.ofNat 32 q.number.toNat)) ∧
  ∀ (dt : Nat) (b : Issued) (w0 : Word) (x : TrendRead) (pre post : List TrendRead) (s : State), s.path.bus = some b →
    b.entry = { access := .read, offset := cellOffset x.column x.position + 4, origin := .trend } → b.reported = true →
    s.path.held = none → s.sweep.trend = pre ++ x :: post → x.word0 = some w0 → x.word1 = none →
    (∀ y ∈ pre ++ post, y.column = x.column ∧ y.position ≠ x.position ∧ (y.word0 = none ∨ y.word1 = none)) →
    let w1 := readWord s.mem b.addr
    let elapsed := (s.sweep.count - BitVec.ofNat 16 (bits w1 16 16)).toNat
    let live := bits w0 22 1 = 1 ∧ bits w1 0 8 = (s.posAt x.position).epoch.toNat ∧
      ((s.posAt x.position).state = .bound ∨ (s.posAt x.position).state = .suspect) ∧ elapsed ≠ 0
    (∀ new, live → (s.posAt x.position).cold = some new →
      ∃ t, exec (.partAccessComplete dt) s = .next t ∧ t.sweep.trend = pre ++ post ∧
        (t.posAt x.position).leak =
          some (leakRate (bits w0 0 12) new elapsed (s.setting .sweepPeriod)) ∧
        t = State.evalLeak
          ({ s.elapse dt with
              path := { s.path with bus := none }
              sweep := { s.sweep with trend := pre ++ post } }.modPos x.position
            (fun r => { r with leak := some (leakRate (bits w0 0 12) new elapsed (s.setting .sweepPeriod)) }))
          x.position (leakRate (bits w0 0 12) new elapsed (s.setting .sweepPeriod)) ∧
        sameBindings s t ∧ (∀ p, p ≠ x.position → t.posAt p = s.posAt p) ∧ t.mem = s.mem ∧ t.pending = s.pending) ∧
    ((¬live ∨ (s.posAt x.position).cold = none) →
      exec (.partAccessComplete dt) s = .next { s.elapse dt with
        path := { s.path with bus := none }, sweep := { s.sweep with trend := pre ++ post } })

/-- R155, R156, R176: a LOAD read result for a word whose loaded flag is set is discarded. One for a word whose flag is clear
sets the flag: an allowed value is taken by the copy, and a refused one leaves every copy and shows its offset; the part stays
in LOADING while another flag is clear. The result that sets the last flag sets the settings-loaded flag and enters RUN: the
parked list is then empty, the sweep timer runs with the full period, and every quiet count is 0. Nothing is said here of the
places in the ring of the parked notices, nor of the notice of a refusal and its order (log 55). -/
def Obligations.LoadResultsAreDiscardedOrTaken : Prop :=
  (∀ (dt : Nat) (b : Issued) (w : SettingWord) (s : State), s.path.bus = some b →
    b.entry = { access := .read, offset := w.offset, origin := .load } → b.reported = true → s.path.held = none →
    s.isLoaded w = true →
    exec (.partAccessComplete dt) s = .next { s.elapse dt with path := { s.path with bus := none } }) ∧
  ∀ (dt : Nat) (b : Issued) (w : SettingWord) (s : State), s.path.bus = some b →
    b.entry = { access := .read, offset := w.offset, origin := .load } → b.reported = true → s.path.held = none →
    s.control.op = .loading → s.isLoaded w = false →
    let v := readWord s.mem b.addr
    ∃ t, exec (.partAccessComplete dt) s = .next t ∧ t.isLoaded w = true ∧ (∀ x, x ≠ w → t.isLoaded x = s.isLoaded x) ∧
      (allowedWord w v (s.setting .historyDepth) → t.copy w = v ∧
        (∀ x, x ≠ w → x ≠ .viewLag → t.copy x = s.copy x) ∧
        (w ≠ .historyDepth → w ≠ .sweepPeriod → w ≠ .viewLag → t.copy .viewLag = s.copy .viewLag) ∧
        (w = .historyDepth → bits v 0 16 ≠ s.setting .historyDepth →
          t.setting .viewLag = if bits v 0 16 ≤ s.setting .viewLag then 0 else s.setting .viewLag) ∧
        t.snoop.refusedOffset = s.snoop.refusedOffset) ∧
      (¬allowedWord w v (s.setting .historyDepth) → t.snoop.settings = s.snoop.settings ∧
        t.snoop.refusedOffset = some w.offset) ∧
      ((∃ x, x ≠ w ∧ s.isLoaded x = false) → t.control.op = .loading ∧
        t.control.settingsLoaded = s.control.settingsLoaded ∧ t.sweep.timer = s.sweep.timer) ∧
      ((∀ x, x ≠ w → s.isLoaded x = true) → t.control.op = .run ∧ t.control.settingsLoaded = true ∧
        t.control.parked = [] ∧ t.sweep.timer = some (s.now + dt + 1000 * t.setting .sweepPeriod) ∧
        (∀ l, (t.intake.lanes.get l).quietCount = 0)) ∧
      t.mem = s.mem ∧ t.pending = s.pending

/-! ### Host transactions (chapter 9) -/

/-- R163, R165, R171: a host read returns for each of its words, where the address lies outside the window, the word that
memory holds; in the window, at the final offset that the translation gives, the pending part data if the queue holds a WRITE
for it, else what memory holds there; and zeros where the translation answers with zeros. A word from memory is returned whole
whatever the byte enables (DESIGN CHOICE, log 44), of which a burst has one set (DESIGN CHOICE, log 56). Nothing else changes. -/
def Obligations.HostReadsReturnTheirWords : Prop :=
  ∀ (dt : Nat) (addr : BitVec 24) (en : BitVec 4) (shape : ReadShape) (s : State), memoryFree s →
    shape.aligned addr.toNat = true →
    ∃ t, exec (.hostRead dt addr en shape) s = .next t ∧ { t with now := s.now, ports := s.ports } = s ∧
      (s.windowOffset addr.toNat = none →
        t.ports.hostData = (List.range (readCount shape)).map (fun i => readWord s.mem (addr.toNat + 4 * i))) ∧
      ∀ o, s.windowOffset addr.toNat = some o →
        (s.readTarget o = none → t.ports.hostData = List.replicate (readCount shape) 0) ∧
        ∀ f, s.readTarget o = some f →
          t.ports.hostData = (List.range (readCount shape)).map (fun i =>
            (pendingWrite s.path.queue (f + 4 * i)).getD (readWord s.mem (s.windowBase + f + 4 * i)))

/-- R148, R165: view column v of the trend view shows the age lag + (D − 1 − v): zeros when v is at or above D or the age at
or above the written count, else byte b of ring column (head − age) mod D. The status aperture is answered with zeros while
nothing is published, and else shows the front page at the same offset. -/
def Obligations.ViewsFollowTheTranslationState : Prop :=
  (∀ (s : State) (v b : Nat), v < 96 → b < 256 →
    let d := s.setting .historyDepth
    let age := s.setting .viewLag + (d - 1 - v)
    (d ≤ v → s.readTarget (0xA000 + v * 256 + b) = none) ∧
    (v < d → s.sweep.written ≤ age → s.readTarget (0xA000 + v * 256 + b) = none) ∧
    (v < d → age < s.sweep.written →
      ∃ c, s.readTarget (0xA000 + v * 256 + b) = some (0x4000 + c * 256 + b) ∧ c < d ∧
        (c + age) % d = s.sweep.head % d)) ∧
  ∀ (s : State) (o : Nat), 0x800 ≤ o → o < 0x1000 →
    (s.sweep.published = false → s.readTarget o = none) ∧
    (s.sweep.published = true → s.sweep.front = .a → s.readTarget o = some (0x1000 + (o - 0x800))) ∧
    (s.sweep.published = true → s.sweep.front = .b → s.readTarget o = some (0x1800 + (o - 0x800)))

/-- R163, R164: a host write outside the window or into a scratch region changes in memory, word by word, exactly the bytes
whose enables are on, and nothing else of the part. -/
def Obligations.PassedWriteReachesMemory : Prop :=
  ∀ (dt : Nat) (addr : BitVec 24) (d : HostData) (s : State), memoryFree s → d.aligned addr.toNat = true →
    (s.windowOffset addr.toNat = none ∨ ∃ o, s.windowOffset addr.toNat = some o ∧ regionOf o = .scratch) →
    ∃ t, exec (.hostWrite dt addr d) s = .next t ∧ t.mem = writeWords s.mem addr.toNat (hostWords d) ∧
      memoryOutside s t addr.toNat (4 * (hostWords d).length) ∧
      { t with now := s.now, mem := s.mem, ports := s.ports } = s ∧
      ∀ w, d = .single w → Memory.wf s.mem = true → ∀ i : Fin 4,
        memRead t.mem (addr.toNat + i.val) =
          if w.enables.getLsbD i.val then w.data.extractLsb' (8 * i.val) 8 else memRead s.mem (addr.toNat + i.val)

/-- R166: a host write into a region that the part owns never changes memory, reaches no setting, and counts each of its
words with an enable on as a refused write; the address of the most recent refused word is kept. -/
def Obligations.SuppressedWriteNeverChangesMemory : Prop :=
  ∀ (dt o : Nat) (addr : BitVec 24) (d : HostData) (s : State), memoryFree s → d.aligned addr.toNat = true →
    s.windowOffset addr.toNat = some o → (regionOf o).writeClass = .suppressed →
    ∃ t, exec (.suppressedWrite dt addr d) s = .next t ∧ t.mem = s.mem ∧ t.snoop = s.snoop ∧
      (s.path.refused ≤ 65535 → t.path.refused =
        min 65535 (s.path.refused + ((hostWords d).filter (fun w => w.enables != 0)).length)) ∧
      (∀ w, d = .single w → t.path.lastRefused = if w.enables = 0 then s.path.lastRefused else some addr) ∧
      (∀ w0 w1 w2 w3, d = .burst w0 w1 w2 w3 → w3.enables ≠ 0 → t.path.lastRefused = some (addr + 12)) ∧
      { t with now := s.now, path := s.path, ports := s.ports } = s ∧ t.path.queue = s.path.queue

/-! ### Settings and live words (chapter 10) -/

/-- R155, R175: a write in RUN of a non-live word, whole or partial, with an allowed merged word is taken. A word that its
owner reads when it is used changes nothing else. The lane-enable mask, with lane A at bit 0 (DEDUCED, log 57), turns masked
lanes OFF with their quiet count and flag
cleared, and lets an unmasked OFF lane settle (R26, R35, R36). A range clamps E of each position that it applies to, with
the deadline recomputed where E changes (R89, R90); a drift limit sets the counts that reach it to 0, and a silence multiple
recomputes every deadline (R101). An acknowledge limit or escalation action moves the escalation timer (R130). A period or
depth that differs restarts the history and lowers the view lag to 0 when it is out of range (R144); that the queued trend
reads leave the queue is log 20 (DEDUCED). In LOADING a whole word that sets the last loaded flag enters RUN (R156). -/
def Obligations.SettingIsTaken : Prop :=
  (∀ (dt : Nat) (w : SettingWord) (h : HostWord) (v : Word) (s : State), takesSetting s w h v → w ∈ plainWords →
    ∃ t, exec (settingWrite dt w.offset h) s = .next t ∧ settingTaken s t dt w h v ∧ settingAside s t = s) ∧
  (∀ (dt : Nat) (h : HostWord) (v : Word) (s : State), takesSetting s .laneMask h v →
    ∃ t, exec (settingWrite dt 0x14 h) s = .next t ∧ settingTaken s t dt .laneMask h v ∧
      (∀ l, t.intake.lanes.get l =
        if v.getLsbD (laneNum l) then { s.intake.lanes.get l with state := .off, quietCount := 0, quiet := false }
        else { s.intake.lanes.get l with
          state := if (s.intake.lanes.get l).state = .off then .settling (s.now + dt + 20)
            else (s.intake.lanes.get l).state }) ∧
      { settingAside s t with intake := { t.intake with lanes := s.intake.lanes } } = s) ∧
  (∀ (dt : Nat) (w : SettingWord) (h : HostWord) (v : Word) (s : State), takesSetting s w h v →
    w ∈ [SettingWord.rollingRange, .parkedRange] →
    ∃ t, exec (settingWrite dt w.offset h) s = .next t ∧ settingTaken s t dt w h v ∧
      (∀ p, (s.posAt p).interval = none → t.posAt p = s.posAt p) ∧
      (∀ p e, (s.posAt p).interval = some e →
        (clampedBy (t.copy (rangeWordOf s p)) e = e → t.posAt p = s.posAt p) ∧
        (clampedBy (t.copy (rangeWordOf s p)) e ≠ e →
          recomputed (s.posAt p) (t.posAt p) (s.setting .silenceMultiple) (clampedBy (t.copy (rangeWordOf s p)) e)
            (s.now + dt))) ∧
      t.intake = s.intake ∧ t.sweep = s.sweep ∧ t.trigger.records = s.trigger.records) ∧
  (∀ (dt : Nat) (h : HostWord) (v : Word) (s : State), takesSetting s .driftLimit h v →
    ∃ t, exec (settingWrite dt 0x44 h) s = .next t ∧ settingTaken s t dt .driftLimit h v ∧
      (∀ p, t.posAt p = { s.posAt p with
        drift := if bits v 0 16 ≤ (s.posAt p).drift.natAbs then 0 else (s.posAt p).drift }) ∧
      { settingAside s t with positions := s.positions } = s) ∧
  (∀ (dt : Nat) (h : HostWord) (v : Word) (s : State), takesSetting s .silenceMultiple h v →
    ∃ t, exec (settingWrite dt 0x4C h) s = .next t ∧ settingTaken s t dt .silenceMultiple h v ∧
      (∀ p, (s.posAt p).interval = none → t.posAt p = s.posAt p) ∧
      (∀ p e, (s.posAt p).interval = some e →
        recomputed (s.posAt p) (t.posAt p) (bits v 0 16) e (s.now + dt)) ∧
      t.intake = s.intake ∧ t.sweep = s.sweep ∧ t.trigger.records = s.trigger.records) ∧
  (∀ (dt : Nat) (w : SettingWord) (h : HostWord) (v : Word) (s : State), takesSetting s w h v →
    w ∈ [SettingWord.ackLimit, .escAction] → lampOk s →
    ∃ t, exec (settingWrite dt w.offset h) s = .next t ∧ settingTaken s t dt w h v ∧
      { settingAside s t with eval := { t.eval with escalation := s.eval.escalation } } = s ∧
      ((t.setting .ackLimit = 0 ∨ t.setting .escAction ≠ 1 ∨
        ∀ (p : Pos) (k : AlertKind), (s.alertAt p k).unackedAlarm = false) → t.eval.escalation = .idle) ∧
      (t.setting .ackLimit ≠ 0 → t.setting .escAction = 1 →
        (∃ (p : Pos) (k : AlertKind), (s.alertAt p k).unackedAlarm = true) →
        t.eval.escalation = if s.eval.escalation = .idle then .running (s.now + dt + 1000 * t.setting .ackLimit)
          else s.eval.escalation)) ∧
  (∀ (dt : Nat) (w : SettingWord) (h : HostWord) (v : Word) (s : State), takesSetting s w h v →
    w ∈ [SettingWord.sweepPeriod, .historyDepth] →
    ∃ t, exec (settingWrite dt w.offset h) s = .next t ∧ settingTaken s t dt w h v ∧
      (bits v 0 16 = s.setting w → settingAside s t = s ∧ t.copy .viewLag = s.copy .viewLag) ∧
      (bits v 0 16 ≠ s.setting w →
        t.sweep = { s.sweep with
          head := t.setting .historyDepth - 1, written := 0, trend := [], keptReads := []
          publication := s.sweep.publication.map (fun q => { q with restarted := true }) } ∧
        t.setting .viewLag =
          (if t.setting .historyDepth ≤ s.setting .viewLag then 0 else s.setting .viewLag) ∧
        t.path.queue = s.path.queue.filter (fun e => e.origin != .trend) ∧
        { settingAside s t with path := s.path, sweep := s.sweep } = s)) ∧
  ∀ (dt : Nat) (w : SettingWord) (h : HostWord) (v : Word) (s : State), s.control.op = .loading → memoryFree s →
    h.enables ≠ 0 → w ∈ plainWords → mergedInto (s.copy w) h v → allowedWord w v (s.setting .historyDepth) →
    ∃ t, exec (settingWrite dt w.offset h) s = .next t ∧ t.copy w = v ∧ (∀ x, x ≠ w → t.copy x = s.copy x) ∧
      t.isLoaded w = (s.isLoaded w || h.enables == 15) ∧ (∀ x, x ≠ w → t.isLoaded x = s.isLoaded x) ∧
      wordWritten s t w.offset h ∧ t.candidates = s.candidates ∧ t.pending = s.pending ∧
      (h.enables = 15 → (∀ x, x ≠ w → s.isLoaded x = true) →
        t.control.op = .run ∧ t.control.settingsLoaded = true ∧ t.control.parked = [] ∧
        t.sweep.timer = some (s.now + dt + 1000 * t.setting .sweepPeriod)) ∧
      ((h.enables ≠ 15 ∨ ∃ x, x ≠ w ∧ s.isLoaded x = false) →
        settingAside s t = s ∧ { t.control with loaded := s.control.loaded } = s.control)

/-- R175, R176: in LOADING or RUN, a merged word outside the allowed values of 11.2 is refused: every copy stays, the
refused-setting offset becomes the word offset, a SETTING REFUSED notice with the merged word is parked (R160) or placed in
the ring (R183), memory keeps the write, and a whole word sets the loaded flag. A read index above 127 and a loader index
above 15 are refused in the same way (R177). The tests of the owners are exactly the allowed values of 11.2. -/
def Obligations.SettingIsRefused : Prop :=
  (∀ (dt : Nat) (w : SettingWord) (h : HostWord) (v : Word) (s : State), takesLiveWords s → h.enables ≠ 0 →
    mergedInto (s.copy w) h v → ¬ allowedWord w v (s.setting .historyDepth) →
    (s.control.op = .loading → h.enables = 15 → ∃ x, x ≠ w ∧ s.isLoaded x = false) →
    (s.control.op = .run → ringReady s) →
    ∃ t, exec (settingWrite dt w.offset h) s = .next t ∧
      t.snoop = { s.snoop with refusedOffset := some w.offset } ∧
      noticeTaken s t (refusalNotice s .settingRefused v w.offset) ∧
      t.isLoaded w = (s.isLoaded w || h.enables == 15) ∧ (∀ x, x ≠ w → t.isLoaded x = s.isLoaded x) ∧
      wordWritten s t w.offset h ∧ { settingAside s t with path := s.path, notices := s.notices } = s) ∧
  (∀ (dt : Nat) (h : HostWord) (v : Word) (w : LiveWord) (top : Nat) (c : Instr) (s : State),
    (w, top, c) ∈ [(LiveWord.readIndex, 127, Instr.noticeReadIndex dt h), (.loaderIndex, 15, .limitLoaderIndex dt h)] →
    takesLiveWords s → h.enables ≠ 0 → mergedInto (s.liveCopy w) h v → top < bits v 0 16 →
    (s.control.op = .run → ringReady s) →
    ∃ t, exec c s = .next t ∧ t.snoop = { s.snoop with refusedOffset := some w.offset } ∧
      noticeTaken s t (refusalNotice s .settingRefused v w.offset) ∧ t.control.loaded = s.control.loaded ∧
      wordWritten s t w.offset h ∧ { settingAside s t with path := s.path, notices := s.notices } = s) ∧
  ∀ (w : SettingWord) (v : Word) (depth : Nat), settingOk w v depth = true ↔ allowedWord w v depth

/-- R175: a settings-page write carried in RESET, WATCH or DEEP WATCH reaches memory and is not taken. -/
def Obligations.WritesOutOfLoadingAndRunAreNotTaken : Prop :=
  ∀ (dt : Nat) (offset : BitVec 10) (w : HostWord) (s : State),
    (s.control.op = .reset ∨ s.control.op = .watch ∨ s.control.op = .deepWatch) →
    memoryFree s → offset.toNat % 4 = 0 →
    ∃ t, exec (.settingsWrite dt offset (.single w)) s = .next t ∧ wordWritten s t offset.toNat w ∧
      { t with now := s.now, mem := s.mem, ports := s.ports } = s

/-- R2, R3, R4, R86: a full-word write of an allowed axle layout in RUN is taken. A position that leaves use becomes VACANT
without an ID, one that enters use becomes UNLEARNED with its sensor fields empty, and one whose trailer flag changes in use
ends UNLEARNED without an ID; the claims on the ID that such a position held go where its recheck flag was set (R21; DEDUCED,
log 15). One that stays in use with its trailer flag keeps its ID, epoch and sample; it keeps its state,
but a LOCATING one of an axle whose kind or trailer flag changes becomes UNLEARNED, and a BOUND one can become SUSPECT by the
clamp of R90; and it keeps its alert records, but for the MISMATCH record of an axle that goes from TWIN to SINGLE, which
becomes CLEAR. The records and requests of the coils of a changed axle go, and no others. Where no position becomes SUSPECT,
a RECHECK with tag 0 is then queued for each changed coil that is available and serves a position with its recheck flag. -/
def Obligations.AxleLayoutIsTaken : Prop :=
  ∀ (dt : Nat) (v : Word) (s : State), takesCommands s → layoutOk v = true → bindingsOk s →
    ∃ t, exec (.axleLayout dt (whole v)) s = .next t ∧ t.layout = v ∧
      (∀ p : Pos,
        (inUse v p = false → (t.posAt p).state = .vacant ∧ (t.posAt p).id = none) ∧
        (inUse v p = true → inUse s.layout p = false → (t.posAt p).state = .unlearned ∧ (t.posAt p).id = none ∧
          (t.posAt p).epoch = (s.posAt p).epoch ∧ sensorFieldsEmpty (t.posAt p)) ∧
        (inUse v p = true → inUse s.layout p = true → trailerPos s.layout p ≠ trailerPos v p →
          (t.posAt p).state = .unlearned ∧ (t.posAt p).id = none) ∧
        (inUse v p = true → inUse s.layout p = true → trailerPos s.layout p = trailerPos v p →
          (t.posAt p).id = (s.posAt p).id ∧ (t.posAt p).epoch = (s.posAt p).epoch ∧
          (t.posAt p).sample = (s.posAt p).sample ∧ (t.posAt p).recheck = (s.posAt p).recheck ∧
          (t.posAt p).claim = (if (s.posAt p).claim.isSome = true ∧ ∃ q : Pos, (s.posAt q).recheck = true ∧
              (s.posAt q).id = (s.posAt p).claim ∧ (inUse v q = false ∨ trailerPos s.layout q ≠ trailerPos v q)
            then none else (s.posAt p).claim) ∧
          ((s.posAt p).state ≠ .bound → (t.posAt p).state =
            if (s.posAt p).state = .locating ∧ (axleOf p).any (axleChanges s.layout v) = true then .unlearned
            else (s.posAt p).state) ∧
          ((s.posAt p).state = .bound → (t.posAt p).state = .bound ∨ (t.posAt p).state = .suspect) ∧
          (∀ k, (k = .silent → (s.posAt p).state ≠ .bound) → (k = .mismatch → (axleOf p).any (fun a =>
              axleKind s.layout a == .twin && axleKind v a == .single) = false) →
            t.alertAt p k = s.alertAt p k) ∧
          ((axleOf p).any (fun a => axleKind s.layout a == .twin && axleKind v a == .single) = true →
            (t.alertAt p .mismatch).state = .clear))) ∧
      t.trigger.records = s.trigger.records.filter (fun r => !(axleChanges s.layout v (coilAxle r.coil))) ∧
      (∀ r ∈ t.trigger.queue, axleChanges s.layout v (coilAxle r.coil) = true → r.attempts = 0 ∧ r.tag = 0) ∧
      (∀ r ∈ s.trigger.queue, axleChanges s.layout v (coilAxle r.coil) = false →
        ∃ x ∈ t.trigger.queue, x.coil = r.coil) ∧
      ((∀ p, (s.posAt p).state = .bound → (t.posAt p).state ≠ .suspect) →
        t.trigger.queue = s.trigger.queue.filter (fun r => !(axleChanges s.layout v (coilAxle r.coil))) ++
          (coilsInOrder.filter (fun c => axleChanges s.layout v (coilAxle c) && t.available c &&
            (servedBy v c).any (fun p => (t.posAt p).recheck))).map (newRequest .recheck)) ∧
      t.candidates.map (fun c => { c with claimed := false }) =
        s.candidates.map (fun c => { c with claimed := false }) ∧
      t.sweep = s.sweep ∧ wordWritten s t 0 (whole v) ∧ t.pending = s.pending

/-- R2, R90, R96, R123: a full-word write of the vehicle state in RUN is taken: a raised body stops the settle timer, a lowered
one starts it for the tipping settle time (or leaves it IDLE when that is 0), and an unchanged flag leaves it. A position is
lifted by its axle's bit of the mask, of which axle 1 has bit 16 (DEDUCED, log 57). Where its lifted status changes, E is clamped
into the range that then applies, which is that of the last sample's motion flag on a lowered axle (DEDUCED, log 42), and a
deadline is recomputed where E changes; a position whose E lies in its range keeps every field. -/
def Obligations.VehicleStateIsTaken : Prop :=
  ∀ (dt : Nat) (v : Word) (s : State), takesCommands s →
    ∃ t, exec (.vehicleState dt (whole v)) s = .next t ∧ t.copy .vehicle = v ∧
      t.speed = bits v 0 8 ∧ t.bodyRaised = v.getLsbD 8 ∧
      (s.bodyRaised = false → v.getLsbD 8 = true → t.eval.settleEnd = none ∧ t.frozen = true) ∧
      (s.bodyRaised = true → v.getLsbD 8 = false → s.setting .tipSettle ≠ 0 →
        t.eval.settleEnd = some (s.now + dt + 1000 * s.setting .tipSettle) ∧ t.frozen = true) ∧
      (s.bodyRaised = true → v.getLsbD 8 = false → s.setting .tipSettle = 0 → t.frozen = false) ∧
      (s.bodyRaised = v.getLsbD 8 → t.eval.settleEnd = s.eval.settleEnd) ∧
      (∀ p, t.lifted p = (axleOf p).any (fun a => axleLiftable s.layout a && v.getLsbD (16 + a.val))) ∧
      (∀ p, (s.posAt p).interval = none → t.posAt p = s.posAt p) ∧
      (∀ p e, (s.posAt p).interval = some e →
        (clampedBy (s.copy (rangeWordOf t p)) e = e → t.posAt p = s.posAt p) ∧
        (t.lifted p ≠ s.lifted p → clampedBy (s.copy (rangeWordOf t p)) e ≠ e →
          recomputed (s.posAt p) (t.posAt p) (s.setting .silenceMultiple) (clampedBy (s.copy (rangeWordOf t p)) e)
            (s.now + dt))) ∧
      (∀ p, (t.posAt p).id = (s.posAt p).id ∧ (t.posAt p).epoch = (s.posAt p).epoch) ∧
      t.intake = s.intake ∧ t.sweep = s.sweep ∧ t.candidates = s.candidates ∧ t.trigger.records = s.trigger.records ∧
      wordWritten s t 0x1C (whole v) ∧ t.pending = s.pending

/-- R184, R185: a write of the read index word, whole or partial, whose merged value is 0 to 127 is taken: one that differs
from the old index clears the notice-lost flag, and the parked-lost flag if the list has been written out; one equal to the
completed index releases the attention state, any other leaves it, also where the write takes the same index again (DEDUCED, log
45). -/
def Obligations.ReadIndexIsTaken : Prop :=
  ∀ (dt : Nat) (w : HostWord) (s : State), takesLiveWords s → w.enables ≠ 0 →
    bits (mergeBytes (s.liveCopy .readIndex) w) 0 16 ≤ 127 →
    ∃ t, exec (.noticeReadIndex dt w) s = .next t ∧
      t.readIndex = BitVec.ofNat 7 (bits (mergeBytes (s.liveCopy .readIndex) w) 0 16) ∧
      t.notices.lost = (if t.readIndex = s.readIndex then s.notices.lost else false) ∧
      t.control.parkedLost = (if t.readIndex = s.readIndex then s.control.parkedLost
        else s.control.parkedLost && !(s.control.parkedWritten)) ∧
      t.notices.attention = (if t.readIndex = s.notices.completed then false else s.notices.attention) ∧
      t.notices.completed = s.notices.completed ∧ t.notices.write = s.notices.write ∧
      t.positions = s.positions ∧ t.snoop.settings = s.snoop.settings ∧ wordWritten s t 0x100 w ∧
      t.pending = s.pending

/-- R141: a write of the page hold word, whole or partial, acts by its merged value: a nonzero one holds the front page; a
zero one releases it and, with a deferred flip and no publication IN PROGRESS, flips at once. -/
def Obligations.PageHoldIsTaken : Prop :=
  ∀ (dt : Nat) (w : HostWord) (s : State), takesLiveWords s → w.enables ≠ 0 →
    let v := mergeBytes (s.liveCopy .pageHold) w
    ∃ t, exec (.pageHold dt w) s = .next t ∧
      (v ≠ 0 → t.sweep = { s.sweep with hold := .held }) ∧
      (v = 0 → s.sweep.deferredFlip = true → s.sweep.publication = none →
        t.sweep = { s.sweep with hold := .released, front := s.sweep.front.other, published := true,
                                 deferredFlip := false, deferredCount := 0 }) ∧
      (v = 0 → (s.sweep.deferredFlip = false ∨ s.sweep.publication ≠ none) →
        t.sweep = { s.sweep with hold := .released }) ∧
      t.liveCopy .pageHold = v ∧ t.positions = s.positions ∧ t.notices = s.notices ∧
      t.snoop.settings = s.snoop.settings ∧ wordWritten s t 0x104 w ∧ t.pending = s.pending

/-- R105, R178, R179: a loader index of 0 to 15 is taken and empties the partial entry. A loader data word, whole or partial,
appends the signed low half-word of its merged value; the sixth value of a valid entry replaces the set that the index names
with its loaded flag set and advances the index, from 15 to 0; the sixth of an invalid one leaves the sets and the index and raises
LIMIT REFUSED with the index (R160, R183). A valid entry has pressures of 0 to 2047, temperatures of -50 to 204, a low-alarm
margin above the low-warn margin and at most the target, and a hot-alarm temperature above the hot-warn temperature. Either
way the partial entry is then empty, and the other fifteen sets stay. -/
def Obligations.LimitLoaderGathersSets : Prop :=
  (∀ (dt : Nat) (w : HostWord) (s : State), takesLiveWords s → w.enables ≠ 0 →
    bits (mergeBytes (s.liveCopy .loaderIndex) w) 0 16 ≤ 15 →
    ∃ t, exec (.limitLoaderIndex dt w) s = .next t ∧
      t.snoop.loaderIndex = BitVec.ofNat 4 (bits (mergeBytes (s.liveCopy .loaderIndex) w) 0 16) ∧
      t.snoop.partialEntry = [] ∧ t.eval = s.eval ∧ t.positions = s.positions ∧ t.notices = s.notices ∧
      t.snoop.settings = s.snoop.settings ∧ wordWritten s t 0x110 w ∧ t.pending = s.pending) ∧
  ∀ (dt : Nat) (w : HostWord) (s : State), takesLiveWords s → w.enables ≠ 0 →
    let x := signedLow (mergeBytes (s.liveCopy .loaderData) w)
    (s.snoop.partialEntry.length < 5 →
      ∃ t, exec (.limitLoaderData dt w) s = .next t ∧
        t.snoop.partialEntry = s.snoop.partialEntry ++ [x] ∧ t.snoop.loaderIndex = s.snoop.loaderIndex ∧
        t.eval = s.eval ∧ t.positions = s.positions ∧ t.pending = s.pending) ∧
    ∀ tg lw la hw ow : Int, s.snoop.partialEntry = [tg, lw, la, hw, ow] →
      let l : LimitSet := { target := tg, lowWarn := lw, lowAlarm := la, highWarn := hw, hotWarn := ow,
                            hotAlarm := x, loaded := true }
      (s.control.op = .run → ringReady s) →
      ∃ t, exec (.limitLoaderData dt w) s = .next t ∧ t.snoop.partialEntry = [] ∧
        (limitsAllowed l → t.eval.limits.get ⟨s.snoop.loaderIndex.toNat, s.snoop.loaderIndex.isLt⟩ = l ∧
          t.snoop.loaderIndex = s.snoop.loaderIndex + 1 ∧ t.notices = s.notices ∧ t.path = s.path) ∧
        (¬ limitsAllowed l → t.eval = s.eval ∧ t.snoop.loaderIndex = s.snoop.loaderIndex ∧
          noticeTaken s t (refusalNotice s .limitRefused 0 s.snoop.loaderIndex.toNat)) ∧
        (∀ i : Fin 16, i.val ≠ s.snoop.loaderIndex.toNat → t.eval.limits.get i = s.eval.limits.get i) ∧
        { t.eval with limits := s.eval.limits } = s.eval ∧ t.liveCopy .loaderData = mergeBytes (s.liveCopy .loaderData) w ∧
        t.positions = s.positions ∧ t.snoop.settings = s.snoop.settings ∧ wordWritten s t 0x114 w ∧
        t.pending = s.pending

/-! ### Commands (chapters 1, 3, 4, 6, 10) -/

/-- R10: BIND of an ID that the position in use does not hold: DONE; the position is BOUND with the ID, its epoch rises by
one, its sensor fields are empty and its deadline is armed at now; the ID leaves the candidate list. A record that held the
ID becomes UNLEARNED without one, its epoch rises by one, and its sensor fields are empty. No other binding changes. -/
def Obligations.BindPlacesTheId : Prop :=
  ∀ (dt : Nat) (tag upper : Byte) (p : Pos) (s : State), takesCommands s →
    validId (s.liveCopy .argument) = true → (s.posAt p).state ≠ .vacant →
    (s.posAt p).id ≠ some (s.liveCopy .argument) →
    ∃ t, exec (.bind dt tag (BitVec.ofNat 8 p.val) upper 15) s = .next t ∧ resultIs s t 1 tag .done ∧
      (t.posAt p).state = .bound ∧ (t.posAt p).id = some (s.liveCopy .argument) ∧
      (t.posAt p).epoch = (s.posAt p).epoch + 1 ∧ sensorFieldsEmpty (t.posAt p) ∧
      (t.posAt p).deadline = some (s.now + dt) ∧ (t.posAt p).missed = 0 ∧ (t.posAt p).recheck = false ∧
      (∀ q, s.holder (s.liveCopy .argument) = some q →
        (t.posAt q).state = .unlearned ∧ (t.posAt q).id = none ∧ (t.posAt q).epoch = (s.posAt q).epoch + 1 ∧
          sensorFieldsEmpty (t.posAt q) ∧ (t.posAt q).interval = none ∧ (t.posAt q).deadline = none) ∧
      (∀ q, q ≠ p → s.holder (s.liveCopy .argument) ≠ some q →
        (t.posAt q).state = (s.posAt q).state ∧ (t.posAt q).id = (s.posAt q).id ∧
        (t.posAt q).epoch = (s.posAt q).epoch ∧ (t.posAt q).sample = (s.posAt q).sample ∧
        (t.posAt q).interval = (s.posAt q).interval ∧ (t.posAt q).deadline = (s.posAt q).deadline) ∧
      (∀ c, c ∈ t.candidates ↔ c ∈ s.candidates ∧ c.id ≠ s.liveCopy .argument) ∧
      t.snoop.settings = s.snoop.settings ∧ t.sweep = s.sweep ∧ t.pending = s.pending

/-- R10, R11, R181: BIND of the ID that the position holds keeps ID, epoch and sample, leaves the position BOUND, clears its
claim and arms its deadline at now. BIND at a VACANT position or of an invalid ID is refused with REFUSED_STATE, and at an
index above 25 with REFUSED_RANGE; no record changes. -/
def Obligations.BindConfirmsOrIsRefused : Prop :=
  (∀ (dt : Nat) (tag upper : Byte) (p : Pos) (s : State), takesCommands s →
    validId (s.liveCopy .argument) = true → (s.posAt p).state ≠ .vacant →
    (s.posAt p).id = some (s.liveCopy .argument) →
    ∃ t, exec (.bind dt tag (BitVec.ofNat 8 p.val) upper 15) s = .next t ∧ resultIs s t 1 tag .done ∧
      (t.posAt p).state = .bound ∧ (t.posAt p).id = (s.posAt p).id ∧ (t.posAt p).epoch = (s.posAt p).epoch ∧
      (t.posAt p).sample = (s.posAt p).sample ∧ (t.posAt p).claim = none ∧
      (t.posAt p).deadline = some (s.now + dt) ∧ (∀ q, q ≠ p → t.posAt q = s.posAt q) ∧
      t.candidates = s.candidates ∧ t.pending = s.pending) ∧
  ∀ (dt : Nat) (tag pos upper : Byte) (s : State), takesCommands s →
    (25 < pos.toNat →
      ∃ t, exec (.bind dt tag pos upper 15) s = .next t ∧ resultIs s t 1 tag .refusedRange ∧
        t.positions = s.positions ∧ t.candidates = s.candidates ∧ t.notices = s.notices) ∧
    ∀ p : Pos, pos = BitVec.ofNat 8 p.val →
      ((s.posAt p).state = .vacant ∨ s.liveCopy .argument = 0 ∨ s.liveCopy .argument = 0xFFFFFFFF) →
      ∃ t, exec (.bind dt tag pos upper 15) s = .next t ∧ resultIs s t 1 tag .refusedState ∧
        t.positions = s.positions ∧ t.candidates = s.candidates ∧ t.notices = s.notices

/-- R12: UNBIND of a position that holds an ID: DONE; it becomes UNLEARNED without an ID, its epoch rises by one, its sensor
and arrival fields are empty and all its alert records are CLEAR; no other binding changes. Of a LOCATING one: DONE; it
becomes UNLEARNED. Of an UNLEARNED one: DONE, and nothing changes. Of a VACANT one: REFUSED_STATE. -/
def Obligations.UnbindDropsTheId : Prop :=
  ∀ (dt : Nat) (tag upper : Byte) (p : Pos) (s : State), takesCommands s →
    ((s.posAt p).state.holdsId = true →
      ∃ t, exec (.unbind dt tag (BitVec.ofNat 8 p.val) upper 15) s = .next t ∧ resultIs s t 2 tag .done ∧
        (t.posAt p).state = .unlearned ∧ (t.posAt p).id = none ∧ (t.posAt p).epoch = (s.posAt p).epoch + 1 ∧
        sensorFieldsEmpty (t.posAt p) ∧ (t.posAt p).interval = none ∧ (t.posAt p).deadline = none ∧
        (t.posAt p).drift = 0 ∧ (t.posAt p).missed = 0 ∧ (∀ k, (t.alertAt p k).state = .clear) ∧
        (∀ q, q ≠ p → (t.posAt q).state = (s.posAt q).state ∧ (t.posAt q).id = (s.posAt q).id ∧
          (t.posAt q).epoch = (s.posAt q).epoch ∧ (t.posAt q).sample = (s.posAt q).sample) ∧
        t.candidates = s.candidates ∧ t.pending = s.pending) ∧
    ((s.posAt p).state = .locating →
      ∃ t, exec (.unbind dt tag (BitVec.ofNat 8 p.val) upper 15) s = .next t ∧ resultIs s t 2 tag .done ∧
        t.posAt p = { s.posAt p with state := .unlearned } ∧ (∀ q, q ≠ p → t.posAt q = s.posAt q) ∧
        t.notices = s.notices ∧ t.candidates = s.candidates ∧ t.pending = s.pending) ∧
    (((s.posAt p).state = .unlearned ∨ (s.posAt p).state = .vacant) →
      ∃ t, exec (.unbind dt tag (BitVec.ofNat 8 p.val) upper 15) s = .next t ∧
        resultIs s t 2 tag (if (s.posAt p).state = .vacant then .refusedState else .done) ∧
        t.positions = s.positions ∧ t.trigger = s.trigger ∧ t.notices = s.notices ∧ t.candidates = s.candidates ∧
        t.pending = s.pending)

/-- R13: SWAP of two positions in use of which at least one holds an ID exchanges what they hold: one that receives an ID is
BOUND with it, one that receives none is UNLEARNED, both epochs rise by one, both sensors' fields are empty, and no other
binding changes. An index in the argument above 25 is refused with REFUSED_RANGE, also where p is VACANT (DESIGN CHOICE, log
47); a VACANT position, the same position twice or two positions without an ID with REFUSED_STATE. -/
def Obligations.SwapExchangesTheIds : Prop :=
  (∀ (dt : Nat) (tag upper : Byte) (p q : Pos) (s : State), takesCommands s →
    bits (s.liveCopy .argument) 0 8 = q.val → p ≠ q → (s.posAt p).state ≠ .vacant → (s.posAt q).state ≠ .vacant →
    ((s.posAt p).id.isSome = true ∨ (s.posAt q).id.isSome = true) →
    ∃ t, exec (.swap dt tag (BitVec.ofNat 8 p.val) upper 15) s = .next t ∧ resultIs s t 3 tag .done ∧
      (t.posAt p).id = (s.posAt q).id ∧ (t.posAt q).id = (s.posAt p).id ∧
      (t.posAt p).state = (if (s.posAt q).id.isSome then .bound else .unlearned) ∧
      (t.posAt q).state = (if (s.posAt p).id.isSome then .bound else .unlearned) ∧
      (t.posAt p).epoch = (s.posAt p).epoch + 1 ∧ (t.posAt q).epoch = (s.posAt q).epoch + 1 ∧
      sensorFieldsEmpty (t.posAt p) ∧ sensorFieldsEmpty (t.posAt q) ∧
      (∀ r, r ≠ p → r ≠ q → (t.posAt r).state = (s.posAt r).state ∧ (t.posAt r).id = (s.posAt r).id ∧
        (t.posAt r).epoch = (s.posAt r).epoch ∧ (t.posAt r).sample = (s.posAt r).sample) ∧
      t.pending = s.pending) ∧
  (∀ (dt : Nat) (tag upper : Byte) (p : Pos) (s : State), takesCommands s → 25 < bits (s.liveCopy .argument) 0 8 →
    ∃ t, exec (.swap dt tag (BitVec.ofNat 8 p.val) upper 15) s = .next t ∧ resultIs s t 3 tag .refusedRange ∧
      t.positions = s.positions ∧ t.candidates = s.candidates) ∧
  ∀ (dt : Nat) (tag upper : Byte) (p q : Pos) (s : State), takesCommands s →
    bits (s.liveCopy .argument) 0 8 = q.val →
    (p = q ∨ (s.posAt p).state = .vacant ∨ (s.posAt q).state = .vacant ∨
      ((s.posAt p).id = none ∧ (s.posAt q).id = none)) →
    ∃ t, exec (.swap dt tag (BitVec.ofNat 8 p.val) upper 15) s = .next t ∧ resultIs s t 3 tag .refusedState ∧
      t.positions = s.positions ∧ t.candidates = s.candidates

/-- R84: LOCATE of a position in use that an available coil serves puts a COMMAND request with the command's tag in the
trigger queue and completes with QUEUED; of a spare it is refused with REFUSED_STATE. LOCATE of FF does so for every
available coil that serves a position in use, and RECHECK for every available coil that serves a position holding an ID;
RECHECK is refused with REFUSED_STATE when there is none. -/
def Obligations.LocationCommandsQueueRequests : Prop :=
  (∀ (dt : Nat) (tag upper : Byte) (p : Pos) (c : Coil) (s : State), takesCommands s →
    servingCoil s.layout p = some c → s.available c = true → (∀ r ∈ s.trigger.queue, r.coil ≠ c) →
    ∃ t, exec (.locate dt tag (BitVec.ofNat 8 p.val) upper 15) s = .next t ∧ resultIs s t 4 tag .queued ∧
      t.trigger.queue = s.trigger.queue ++ [{ coil := c, purpose := .command, attempts := 0, tag := tag }] ∧
      t.trigger.records = s.trigger.records ∧ t.positions = s.positions ∧ t.candidates = s.candidates ∧
      t.pending = s.pending) ∧
  (∀ (dt : Nat) (tag upper : Byte) (p : Pos) (s : State), takesCommands s → 24 ≤ p.val →
    ∃ t, exec (.locate dt tag (BitVec.ofNat 8 p.val) upper 15) s = .next t ∧ resultIs s t 4 tag .refusedState ∧
      t.trigger = s.trigger ∧ t.positions = s.positions) ∧
  (∀ (dt : Nat) (tag upper : Byte) (s : State), takesCommands s →
    (∃ c, s.available c = true ∧ servedBy s.layout c ≠ []) →
    ∃ t, exec (.locate dt tag 0xFF upper 15) s = .next t ∧ resultIs s t 4 tag .queued ∧
      (∀ c, s.available c = true → servedBy s.layout c ≠ [] →
        ∃ r ∈ t.trigger.queue, r.coil = c ∧ r.purpose = .command ∧ r.tag = tag) ∧
      t.positions = s.positions ∧ t.candidates = s.candidates ∧ t.pending = s.pending) ∧
  ∀ (dt : Nat) (tag pos upper : Byte) (s : State), takesCommands s →
    ((∃ c, s.available c = true ∧ s.servesState c BindState.holdsId = true) →
      ∃ t, exec (.recheck dt tag pos upper 15) s = .next t ∧ resultIs s t 5 tag .queued ∧
        (∀ c, s.available c = true → s.servesState c BindState.holdsId = true →
          ∃ r ∈ t.trigger.queue, r.coil = c ∧ r.purpose = .command ∧ r.tag = tag) ∧
        t.positions = s.positions ∧ t.candidates = s.candidates ∧ t.pending = s.pending) ∧
    ((∀ c, s.available c = true → s.servesState c BindState.holdsId = false) →
      ∃ t, exec (.recheck dt tag pos upper 15) s = .next t ∧ resultIs s t 5 tag .refusedState ∧
        t.trigger = s.trigger ∧ t.positions = s.positions)

/-- R125: ACK of a position that is not VACANT, or of FF for all, with a mask of kinds, completes with DONE and sets the
acknowledged flag of its ACTIVE and CLEARING records of the named kinds, and of no other record. It is refused with
REFUSED_RANGE for a mask bit above bit 6 or an index that is neither 0 to 25 nor FF, and with REFUSED_STATE for a VACANT
position; a mask bit above bit 6 is refused with REFUSED_RANGE at a VACANT position too (DESIGN CHOICE, log 43). -/
def Obligations.AckAcknowledges : Prop :=
  (∀ (dt : Nat) (tag upper : Byte) (p : Pos) (s : State), takesCommands s → (s.liveCopy .argument).toNat < 128 →
    ((s.posAt p).state ≠ .vacant →
      ∃ t, exec (.ack dt tag (BitVec.ofNat 8 p.val) upper 15) s = .next t ∧ resultIs s t 6 tag .done ∧
        (∀ k, t.alertAt p k =
          if (s.liveCopy .argument).getLsbD k.num = true ∧ (s.alertAt p k).standing = true
          then { s.alertAt p k with acked := true } else s.alertAt p k) ∧
        (∀ q, q ≠ p → t.posAt q = s.posAt q) ∧ sameBindings s t ∧ t.candidates = s.candidates ∧
        t.trigger = s.trigger ∧ t.notices = s.notices ∧ t.pending = s.pending) ∧
    ((s.posAt p).state = .vacant →
      ∃ t, exec (.ack dt tag (BitVec.ofNat 8 p.val) upper 15) s = .next t ∧ resultIs s t 6 tag .refusedState ∧
        t.positions = s.positions ∧ t.eval = s.eval)) ∧
  (∀ (dt : Nat) (tag upper : Byte) (s : State), takesCommands s → (s.liveCopy .argument).toNat < 128 →
    ∃ t, exec (.ack dt tag 0xFF upper 15) s = .next t ∧ resultIs s t 6 tag .done ∧
      (∀ p k, t.alertAt p k =
        if (s.liveCopy .argument).getLsbD k.num = true ∧ (s.alertAt p k).standing = true
        then { s.alertAt p k with acked := true } else s.alertAt p k) ∧
      sameBindings s t ∧ t.candidates = s.candidates ∧ t.trigger = s.trigger ∧ t.notices = s.notices ∧
      t.pending = s.pending) ∧
  ∀ (dt : Nat) (tag pos upper : Byte) (s : State), takesCommands s →
    (128 ≤ (s.liveCopy .argument).toNat ∨ (25 < pos.toNat ∧ pos ≠ 0xFF)) →
    ∃ t, exec (.ack dt tag pos upper 15) s = .next t ∧ resultIs s t 6 tag .refusedRange ∧
      t.positions = s.positions ∧ t.eval = s.eval

/-- R57: FORGET CANDIDATES removes every non-CLAIMED entry and keeps the others in order; it completes with DONE and touches
no trigger request, no record, no position and no notice. -/
def Obligations.ForgetKeepsOnlyClaimedCandidates : Prop :=
  ∀ (dt : Nat) (tag pos upper : Byte) (s : State), takesCommands s →
    ∃ t, exec (.forgetCandidates dt tag pos upper 15) s = .next t ∧ resultIs s t 7 tag .done ∧
      t.candidates = s.candidates.filter (fun e => e.claimed) ∧ t.trigger = s.trigger ∧ t.positions = s.positions ∧
      t.notices = s.notices ∧ t.eval = s.eval ∧ t.path = s.path ∧ t.snoop.settings = s.snoop.settings ∧
      t.pending = s.pending

/-- R180: in RUN a code that names no command gives a result with REFUSED_RANGE, and a partial write of the command word one
with BAD_WRITE and the code and tag of the merged word; neither executes anything. In LOADING a taken command writes no
result and is not executed. -/
def Obligations.CommandsThatAreNotExecuted : Prop :=
  (∀ (dt : Nat) (code tag pos upper : Byte) (s : State), takesCommands s → codeNamesCommand code.toNat = false →
    ∃ t, exec (.commandCodeNamesNoCommand dt code tag pos upper 15) s = .next t ∧
      resultIs s t code tag .refusedRange ∧ t.positions = s.positions ∧ t.candidates = s.candidates ∧
      t.trigger = s.trigger ∧ t.notices = s.notices ∧ t.pending = s.pending) ∧
  (∀ (dt : Nat) (code tag pos upper : Byte) (en : BitVec 4) (x : Nat × Instr) (s : State), takesCommands s →
    en ≠ 15 → en ≠ 0 → x ∈ commandWrites dt code tag pos upper en →
    let m := mergeBytes (s.liveCopy .command) { enables := en, data := commandWord x.1 tag pos upper }
    ∃ t, exec x.2 s = .next t ∧ resultIs s t (m.extractLsb' 0 8) (m.extractLsb' 8 8) .badWrite ∧
      t.positions = s.positions ∧ t.candidates = s.candidates ∧ t.trigger = s.trigger ∧ t.notices = s.notices ∧
      t.pending = s.pending) ∧
  ∀ (dt : Nat) (code tag pos upper : Byte) (en : BitVec 4) (x : Nat × Instr) (s : State), s.control.op = .loading →
    memoryFree s → x ∈ commandWrites dt code tag pos upper en →
    ∃ t, exec x.2 s = .next t ∧ t.snoop.result = s.snoop.result ∧ t.snoop.restart = s.snoop.restart ∧
      t.positions = s.positions ∧ t.candidates = s.candidates ∧ t.trigger = s.trigger ∧ t.notices = s.notices ∧
      t.pending = s.pending

/-! ### Invariants that every step keeps -/

/-- The memory keeps its canonical form, which is the model's own way to hold it (DESIGN CHOICE, log 3). -/
def Obligations.EveryStepKeepsTheMemoryForm : Prop := stepKeeps (fun s => Memory.wf s.mem = true)

/-- R169: the outbound queue never holds more than 48 entries or two WRITE entries for one word offset. -/
def Obligations.EveryStepKeepsTheOutboundQueue : Prop := stepKeeps (fun s => queueOk s.path.queue)

/-- R5, R6, R20: each record holds an ID exactly in its four states, is VACANT exactly when out of use, shares its ID with
no other, and has a move claim only while it holds an ID; and no ID that a record holds is in the candidate list. -/
def Obligations.EveryStepKeepsTheBindings : Prop := stepKeeps (fun s => bindingsOk s ∧ heldNotListed s)

/-- R127, R128: the lamp shows the alert records, and the escalation timer follows the unacknowledged alarms. -/
def Obligations.EveryStepKeepsTheLampAndTheTimer : Prop :=
  stepKeeps (fun s => lampOk s ∧ escalationOk s)

/-- R37, R45, R49, R62, R66, R160, R178: the fire records, the candidate list with its CLAIMED flags, and the bounds of the
lists. -/
def Obligations.EveryStepKeepsTheRecordsAndLists : Prop :=
  stepKeeps (fun s => recordsOk s ∧ candidatesOk s ∧ listsOk s)

/-- Every invariant above holds right after reset. -/
def Obligations.InvariantsHoldAtReset : Prop :=
  Memory.wf State.reset.mem = true ∧ queueOk State.reset.path.queue ∧ bindingsOk State.reset ∧ heldNotListed State.reset ∧ lampOk State.reset ∧
    escalationOk State.reset ∧ recordsOk State.reset ∧ candidatesOk State.reset ∧ listsOk State.reset
end

