-- ==== Sys2Proof/Laws/State.lean ====
section
/-! SUPPORT. One lemma per field of the state per elementary update, true by rfl, and how the elementary updates read
back: no proof needs to unfold a record update. -/

namespace Sys2Proof.Machine

/-! ### elapse -/

@[simp] theorem elapse_intake (s : State) (dt : Nat) : (s.elapse dt).intake = s.intake := rfl
@[simp] theorem elapse_positions (s : State) (dt : Nat) : (s.elapse dt).positions = s.positions := rfl
@[simp] theorem elapse_candidates (s : State) (dt : Nat) : (s.elapse dt).candidates = s.candidates := rfl
@[simp] theorem elapse_trigger (s : State) (dt : Nat) : (s.elapse dt).trigger = s.trigger := rfl
@[simp] theorem elapse_eval (s : State) (dt : Nat) : (s.elapse dt).eval = s.eval := rfl
@[simp] theorem elapse_sweep (s : State) (dt : Nat) : (s.elapse dt).sweep = s.sweep := rfl
@[simp] theorem elapse_path (s : State) (dt : Nat) : (s.elapse dt).path = s.path := rfl
@[simp] theorem elapse_snoop (s : State) (dt : Nat) : (s.elapse dt).snoop = s.snoop := rfl
@[simp] theorem elapse_notices (s : State) (dt : Nat) : (s.elapse dt).notices = s.notices := rfl
@[simp] theorem elapse_control (s : State) (dt : Nat) : (s.elapse dt).control = s.control := rfl
@[simp] theorem elapse_pins (s : State) (dt : Nat) : (s.elapse dt).pins = s.pins := rfl
@[simp] theorem elapse_mem (s : State) (dt : Nat) : (s.elapse dt).mem = s.mem := rfl
@[simp] theorem elapse_ports (s : State) (dt : Nat) : (s.elapse dt).ports = s.ports := rfl
@[simp] theorem elapse_pending (s : State) (dt : Nat) : (s.elapse dt).pending = s.pending := rfl

/-! ### modPos -/

@[simp] theorem modPos_now (s : State) (p : Pos) (f : PosRec → PosRec) : (s.modPos p f).now = s.now := rfl
@[simp] theorem modPos_intake (s : State) (p : Pos) (f : PosRec → PosRec) : (s.modPos p f).intake = s.intake := rfl
@[simp] theorem modPos_candidates (s : State) (p : Pos) (f : PosRec → PosRec) : (s.modPos p f).candidates = s.candidates := rfl
@[simp] theorem modPos_trigger (s : State) (p : Pos) (f : PosRec → PosRec) : (s.modPos p f).trigger = s.trigger := rfl
@[simp] theorem modPos_eval (s : State) (p : Pos) (f : PosRec → PosRec) : (s.modPos p f).eval = s.eval := rfl
@[simp] theorem modPos_sweep (s : State) (p : Pos) (f : PosRec → PosRec) : (s.modPos p f).sweep = s.sweep := rfl
@[simp] theorem modPos_path (s : State) (p : Pos) (f : PosRec → PosRec) : (s.modPos p f).path = s.path := rfl
@[simp] theorem modPos_snoop (s : State) (p : Pos) (f : PosRec → PosRec) : (s.modPos p f).snoop = s.snoop := rfl
@[simp] theorem modPos_notices (s : State) (p : Pos) (f : PosRec → PosRec) : (s.modPos p f).notices = s.notices := rfl
@[simp] theorem modPos_control (s : State) (p : Pos) (f : PosRec → PosRec) : (s.modPos p f).control = s.control := rfl
@[simp] theorem modPos_pins (s : State) (p : Pos) (f : PosRec → PosRec) : (s.modPos p f).pins = s.pins := rfl
@[simp] theorem modPos_mem (s : State) (p : Pos) (f : PosRec → PosRec) : (s.modPos p f).mem = s.mem := rfl
@[simp] theorem modPos_ports (s : State) (p : Pos) (f : PosRec → PosRec) : (s.modPos p f).ports = s.ports := rfl
@[simp] theorem modPos_pending (s : State) (p : Pos) (f : PosRec → PosRec) : (s.modPos p f).pending = s.pending := rfl

/-! ### mapPos -/

@[simp] theorem mapPos_now (s : State) (f : Pos → PosRec → PosRec) : (s.mapPos f).now = s.now := rfl
@[simp] theorem mapPos_intake (s : State) (f : Pos → PosRec → PosRec) : (s.mapPos f).intake = s.intake := rfl
@[simp] theorem mapPos_candidates (s : State) (f : Pos → PosRec → PosRec) : (s.mapPos f).candidates = s.candidates := rfl
@[simp] theorem mapPos_trigger (s : State) (f : Pos → PosRec → PosRec) : (s.mapPos f).trigger = s.trigger := rfl
@[simp] theorem mapPos_eval (s : State) (f : Pos → PosRec → PosRec) : (s.mapPos f).eval = s.eval := rfl
@[simp] theorem mapPos_sweep (s : State) (f : Pos → PosRec → PosRec) : (s.mapPos f).sweep = s.sweep := rfl
@[simp] theorem mapPos_path (s : State) (f : Pos → PosRec → PosRec) : (s.mapPos f).path = s.path := rfl
@[simp] theorem mapPos_snoop (s : State) (f : Pos → PosRec → PosRec) : (s.mapPos f).snoop = s.snoop := rfl
@[simp] theorem mapPos_notices (s : State) (f : Pos → PosRec → PosRec) : (s.mapPos f).notices = s.notices := rfl
@[simp] theorem mapPos_control (s : State) (f : Pos → PosRec → PosRec) : (s.mapPos f).control = s.control := rfl
@[simp] theorem mapPos_pins (s : State) (f : Pos → PosRec → PosRec) : (s.mapPos f).pins = s.pins := rfl
@[simp] theorem mapPos_mem (s : State) (f : Pos → PosRec → PosRec) : (s.mapPos f).mem = s.mem := rfl
@[simp] theorem mapPos_ports (s : State) (f : Pos → PosRec → PosRec) : (s.mapPos f).ports = s.ports := rfl
@[simp] theorem mapPos_pending (s : State) (f : Pos → PosRec → PosRec) : (s.mapPos f).pending = s.pending := rfl

/-! ### modLane -/

@[simp] theorem modLane_now (s : State) (l : Lane) (f : LaneRec → LaneRec) : (s.modLane l f).now = s.now := rfl
@[simp] theorem modLane_positions (s : State) (l : Lane) (f : LaneRec → LaneRec) : (s.modLane l f).positions = s.positions := rfl
@[simp] theorem modLane_candidates (s : State) (l : Lane) (f : LaneRec → LaneRec) : (s.modLane l f).candidates = s.candidates := rfl
@[simp] theorem modLane_trigger (s : State) (l : Lane) (f : LaneRec → LaneRec) : (s.modLane l f).trigger = s.trigger := rfl
@[simp] theorem modLane_eval (s : State) (l : Lane) (f : LaneRec → LaneRec) : (s.modLane l f).eval = s.eval := rfl
@[simp] theorem modLane_sweep (s : State) (l : Lane) (f : LaneRec → LaneRec) : (s.modLane l f).sweep = s.sweep := rfl
@[simp] theorem modLane_path (s : State) (l : Lane) (f : LaneRec → LaneRec) : (s.modLane l f).path = s.path := rfl
@[simp] theorem modLane_snoop (s : State) (l : Lane) (f : LaneRec → LaneRec) : (s.modLane l f).snoop = s.snoop := rfl
@[simp] theorem modLane_notices (s : State) (l : Lane) (f : LaneRec → LaneRec) : (s.modLane l f).notices = s.notices := rfl
@[simp] theorem modLane_control (s : State) (l : Lane) (f : LaneRec → LaneRec) : (s.modLane l f).control = s.control := rfl
@[simp] theorem modLane_pins (s : State) (l : Lane) (f : LaneRec → LaneRec) : (s.modLane l f).pins = s.pins := rfl
@[simp] theorem modLane_mem (s : State) (l : Lane) (f : LaneRec → LaneRec) : (s.modLane l f).mem = s.mem := rfl
@[simp] theorem modLane_ports (s : State) (l : Lane) (f : LaneRec → LaneRec) : (s.modLane l f).ports = s.ports := rfl
@[simp] theorem modLane_pending (s : State) (l : Lane) (f : LaneRec → LaneRec) : (s.modLane l f).pending = s.pending := rfl

/-! ### setCoil -/

@[simp] theorem setCoil_now (s : State) (c : Coil) (x : CoilState) : (s.setCoil c x).now = s.now := rfl
@[simp] theorem setCoil_intake (s : State) (c : Coil) (x : CoilState) : (s.setCoil c x).intake = s.intake := rfl
@[simp] theorem setCoil_positions (s : State) (c : Coil) (x : CoilState) : (s.setCoil c x).positions = s.positions := rfl
@[simp] theorem setCoil_candidates (s : State) (c : Coil) (x : CoilState) : (s.setCoil c x).candidates = s.candidates := rfl
@[simp] theorem setCoil_eval (s : State) (c : Coil) (x : CoilState) : (s.setCoil c x).eval = s.eval := rfl
@[simp] theorem setCoil_sweep (s : State) (c : Coil) (x : CoilState) : (s.setCoil c x).sweep = s.sweep := rfl
@[simp] theorem setCoil_path (s : State) (c : Coil) (x : CoilState) : (s.setCoil c x).path = s.path := rfl
@[simp] theorem setCoil_snoop (s : State) (c : Coil) (x : CoilState) : (s.setCoil c x).snoop = s.snoop := rfl
@[simp] theorem setCoil_notices (s : State) (c : Coil) (x : CoilState) : (s.setCoil c x).notices = s.notices := rfl
@[simp] theorem setCoil_control (s : State) (c : Coil) (x : CoilState) : (s.setCoil c x).control = s.control := rfl
@[simp] theorem setCoil_pins (s : State) (c : Coil) (x : CoilState) : (s.setCoil c x).pins = s.pins := rfl
@[simp] theorem setCoil_mem (s : State) (c : Coil) (x : CoilState) : (s.setCoil c x).mem = s.mem := rfl
@[simp] theorem setCoil_ports (s : State) (c : Coil) (x : CoilState) : (s.setCoil c x).ports = s.ports := rfl
@[simp] theorem setCoil_pending (s : State) (c : Coil) (x : CoilState) : (s.setCoil c x).pending = s.pending := rfl

/-! ### setCopy -/

@[simp] theorem setCopy_now (s : State) (w : SettingWord) (v : Word) : (s.setCopy w v).now = s.now := rfl
@[simp] theorem setCopy_intake (s : State) (w : SettingWord) (v : Word) : (s.setCopy w v).intake = s.intake := rfl
@[simp] theorem setCopy_positions (s : State) (w : SettingWord) (v : Word) : (s.setCopy w v).positions = s.positions := rfl
@[simp] theorem setCopy_candidates (s : State) (w : SettingWord) (v : Word) : (s.setCopy w v).candidates = s.candidates := rfl
@[simp] theorem setCopy_trigger (s : State) (w : SettingWord) (v : Word) : (s.setCopy w v).trigger = s.trigger := rfl
@[simp] theorem setCopy_eval (s : State) (w : SettingWord) (v : Word) : (s.setCopy w v).eval = s.eval := rfl
@[simp] theorem setCopy_sweep (s : State) (w : SettingWord) (v : Word) : (s.setCopy w v).sweep = s.sweep := rfl
@[simp] theorem setCopy_path (s : State) (w : SettingWord) (v : Word) : (s.setCopy w v).path = s.path := rfl
@[simp] theorem setCopy_notices (s : State) (w : SettingWord) (v : Word) : (s.setCopy w v).notices = s.notices := rfl
@[simp] theorem setCopy_control (s : State) (w : SettingWord) (v : Word) : (s.setCopy w v).control = s.control := rfl
@[simp] theorem setCopy_pins (s : State) (w : SettingWord) (v : Word) : (s.setCopy w v).pins = s.pins := rfl
@[simp] theorem setCopy_mem (s : State) (w : SettingWord) (v : Word) : (s.setCopy w v).mem = s.mem := rfl
@[simp] theorem setCopy_ports (s : State) (w : SettingWord) (v : Word) : (s.setCopy w v).ports = s.ports := rfl
@[simp] theorem setCopy_pending (s : State) (w : SettingWord) (v : Word) : (s.setCopy w v).pending = s.pending := rfl

/-! ### setLive -/

@[simp] theorem setLive_now (s : State) (w : LiveWord) (v : Word) : (s.setLive w v).now = s.now := rfl
@[simp] theorem setLive_intake (s : State) (w : LiveWord) (v : Word) : (s.setLive w v).intake = s.intake := rfl
@[simp] theorem setLive_positions (s : State) (w : LiveWord) (v : Word) : (s.setLive w v).positions = s.positions := rfl
@[simp] theorem setLive_candidates (s : State) (w : LiveWord) (v : Word) : (s.setLive w v).candidates = s.candidates := rfl
@[simp] theorem setLive_trigger (s : State) (w : LiveWord) (v : Word) : (s.setLive w v).trigger = s.trigger := rfl
@[simp] theorem setLive_eval (s : State) (w : LiveWord) (v : Word) : (s.setLive w v).eval = s.eval := rfl
@[simp] theorem setLive_sweep (s : State) (w : LiveWord) (v : Word) : (s.setLive w v).sweep = s.sweep := rfl
@[simp] theorem setLive_path (s : State) (w : LiveWord) (v : Word) : (s.setLive w v).path = s.path := rfl
@[simp] theorem setLive_notices (s : State) (w : LiveWord) (v : Word) : (s.setLive w v).notices = s.notices := rfl
@[simp] theorem setLive_control (s : State) (w : LiveWord) (v : Word) : (s.setLive w v).control = s.control := rfl
@[simp] theorem setLive_pins (s : State) (w : LiveWord) (v : Word) : (s.setLive w v).pins = s.pins := rfl
@[simp] theorem setLive_mem (s : State) (w : LiveWord) (v : Word) : (s.setLive w v).mem = s.mem := rfl
@[simp] theorem setLive_ports (s : State) (w : LiveWord) (v : Word) : (s.setLive w v).ports = s.ports := rfl
@[simp] theorem setLive_pending (s : State) (w : LiveWord) (v : Word) : (s.setLive w v).pending = s.pending := rfl

/-! ### markLoaded -/

@[simp] theorem markLoaded_now (s : State) (w : SettingWord) : (s.markLoaded w).now = s.now := rfl
@[simp] theorem markLoaded_intake (s : State) (w : SettingWord) : (s.markLoaded w).intake = s.intake := rfl
@[simp] theorem markLoaded_positions (s : State) (w : SettingWord) : (s.markLoaded w).positions = s.positions := rfl
@[simp] theorem markLoaded_candidates (s : State) (w : SettingWord) : (s.markLoaded w).candidates = s.candidates := rfl
@[simp] theorem markLoaded_trigger (s : State) (w : SettingWord) : (s.markLoaded w).trigger = s.trigger := rfl
@[simp] theorem markLoaded_eval (s : State) (w : SettingWord) : (s.markLoaded w).eval = s.eval := rfl
@[simp] theorem markLoaded_sweep (s : State) (w : SettingWord) : (s.markLoaded w).sweep = s.sweep := rfl
@[simp] theorem markLoaded_path (s : State) (w : SettingWord) : (s.markLoaded w).path = s.path := rfl
@[simp] theorem markLoaded_snoop (s : State) (w : SettingWord) : (s.markLoaded w).snoop = s.snoop := rfl
@[simp] theorem markLoaded_notices (s : State) (w : SettingWord) : (s.markLoaded w).notices = s.notices := rfl
@[simp] theorem markLoaded_pins (s : State) (w : SettingWord) : (s.markLoaded w).pins = s.pins := rfl
@[simp] theorem markLoaded_mem (s : State) (w : SettingWord) : (s.markLoaded w).mem = s.mem := rfl
@[simp] theorem markLoaded_ports (s : State) (w : SettingWord) : (s.markLoaded w).ports = s.ports := rfl
@[simp] theorem markLoaded_pending (s : State) (w : SettingWord) : (s.markLoaded w).pending = s.pending := rfl

/-! ### How the updates read back -/

@[simp] theorem elapse_now (s : State) (dt : Nat) : (s.elapse dt).now = s.now + dt := rfl

@[simp] theorem elapse_zero (s : State) : s.elapse 0 = s := rfl

@[simp] theorem posAt_elapse (s : State) (dt : Nat) (p : Pos) : (s.elapse dt).posAt p = s.posAt p := rfl

theorem posAt_eq (s : State) (p : Pos) : s.posAt p = s.positions[p.val]'p.isLt := rfl

@[simp] theorem posAt_modPos_same (s : State) (p : Pos) (f : PosRec → PosRec) :
    (s.modPos p f).posAt p = f (s.posAt p) := by
  simp [posAt_eq, State.modPos]

theorem posAt_modPos_other (s : State) (p q : Pos) (f : PosRec → PosRec) (h : q ≠ p) :
    (s.modPos p f).posAt q = s.posAt q := by
  have hne : p.val ≠ q.val := fun e => h (Fin.ext e.symm)
  simp [posAt_eq, State.modPos, Vector.getElem_set_ne, hne]

theorem posAt_modPos (s : State) (p q : Pos) (f : PosRec → PosRec) :
    (s.modPos p f).posAt q = if q = p then f (s.posAt p) else s.posAt q := by
  by_cases h : q = p
  · subst h; simp
  · rw [posAt_modPos_other s p q f h, if_neg h]

theorem posTable_get (f : Pos → PosRec) (p : Pos) : (posTable f)[p.val]'p.isLt = f p := by
  unfold posTable
  simp

@[simp] theorem posAt_mapPos (s : State) (f : Pos → PosRec → PosRec) (p : Pos) :
    (s.mapPos f).posAt p = f p (s.posAt p) := by
  simp only [posAt_eq, State.mapPos, posTable_get]

theorem copy_eq (s : State) (w : SettingWord) : s.copy w = s.snoop.settings[w.num]'w.num_lt := rfl

theorem liveCopy_eq (s : State) (w : LiveWord) : s.liveCopy w = s.snoop.live[w.num]'w.num_lt := rfl

@[simp] theorem setCopy_copy_same (s : State) (w : SettingWord) (v : Word) : (s.setCopy w v).copy w = v := by
  simp [copy_eq, State.setCopy, SettingWord.index]

theorem SettingWord.num_inj {w x : SettingWord} (h : w.num = x.num) : w = x := by
  cases w <;> cases x <;> first | rfl | (simp [SettingWord.num] at h)

theorem setCopy_copy_other (s : State) (w x : SettingWord) (v : Word) (h : x ≠ w) :
    (s.setCopy w v).copy x = s.copy x := by
  have hne : w.num ≠ x.num := fun e => h (SettingWord.num_inj e.symm)
  simp [copy_eq, State.setCopy, SettingWord.index, Vector.getElem_set_ne, hne]

@[simp] theorem setLive_liveCopy_same (s : State) (w : LiveWord) (v : Word) : (s.setLive w v).liveCopy w = v := by
  simp [liveCopy_eq, State.setLive, LiveWord.index]

@[simp] theorem setLive_copy (s : State) (w : LiveWord) (x : SettingWord) (v : Word) :
    (s.setLive w v).copy x = s.copy x := rfl

@[simp] theorem copy_elapse (s : State) (dt : Nat) (w : SettingWord) : (s.elapse dt).copy w = s.copy w := rfl

@[simp] theorem copy_modPos (s : State) (p : Pos) (f : PosRec → PosRec) (w : SettingWord) :
    (s.modPos p f).copy w = s.copy w := rfl

@[simp] theorem copy_mapPos (s : State) (f : Pos → PosRec → PosRec) (w : SettingWord) :
    (s.mapPos f).copy w = s.copy w := rfl

@[simp] theorem Lanes.get_set_same {α : Type} (v : Lanes α) (l : Lane) (x : α) : (v.set l x).get l = x := by
  cases l <;> rfl

theorem Lanes.get_set_other {α : Type} (v : Lanes α) (l m : Lane) (x : α) (h : m ≠ l) :
    (v.set l x).get m = v.get m := by
  cases l <;> cases m <;> first | rfl | exact absurd rfl h

@[simp] theorem Lanes.get_tabulate {α : Type} (f : Lane → α) (l : Lane) : (Lanes.tabulate f).get l = f l := by
  cases l <;> rfl

@[simp] theorem Alerts.get_set_same (v : Alerts) (k : AlertKind) (r : AlertRec) : (v.set k r).get k = r := by
  cases k <;> rfl

theorem Alerts.get_set_other (v : Alerts) (k m : AlertKind) (r : AlertRec) (h : m ≠ k) :
    (v.set k r).get m = v.get m := by
  cases k <;> cases m <;> first | rfl | exact absurd rfl h


end Sys2Proof.Machine
end

