-- ==== Sys2Proof/Laws/Frames.lean ====
section
/-! SUPPORT. What the vehicle-side operations leave alone, said once: `State.base` is the part of the state that no
operation on positions, alerts, candidates, requests, notices or telegrams changes, and one lemma per operation says so. A
proof cites the lemma and reads a field off it with congrArg, instead of unfolding the operation. -/

set_option linter.unusedTactic false
set_option linter.unreachableTactic false

namespace Sys2Proof.Machine

/-- The part of the state that the operations behind the settings and the memory path leave alone. -/
structure Base where
  now : Time
  mem : List Host.Cell
  pins : Pins
  ports : Ports
  pending : List Instr
  sweep : Sweep
  snoop : Snoop
  limits : Vector LimitSet 16
  settleEnd : Option Time
  op : OpState
  settingsLoaded : Bool
  loaded : Vector Bool 35
  deepEnd : Option Time
  nextWindow : Option Time
  windowEnd : Option Time
  refIgn : Bool
  refTrl : Bool
  refHup : Bool
  bus : Option Issued
  held : Option BusTxn
  owed : Bool
  waiting : List HostTxn
  refused : Nat
  lastRefused : Option (BitVec 24)
  keptLoads : List SettingWord
  overdue : Bool

/-- The base of a state. -/
def State.base (s : State) : Base :=
  { now := s.now, mem := s.mem, pins := s.pins, ports := s.ports, pending := s.pending, sweep := s.sweep,
    snoop := s.snoop, limits := s.eval.limits, settleEnd := s.eval.settleEnd, op := s.control.op,
    settingsLoaded := s.control.settingsLoaded, loaded := s.control.loaded, deepEnd := s.control.deepEnd,
    nextWindow := s.control.nextWindow, windowEnd := s.control.windowEnd, refIgn := s.control.refIgn,
    refTrl := s.control.refTrl, refHup := s.control.refHup, bus := s.path.bus, held := s.path.held,
    owed := s.path.owed, waiting := s.path.waiting, refused := s.path.refused, lastRefused := s.path.lastRefused,
    keptLoads := s.path.keptLoads, overdue := s.path.overdue }

/-- The notice writer is no part of the base. -/
theorem base_notices (s : State) (n : NoticeWriter) : ({ s with notices := n } : State).base = s.base := rfl

/-- The trigger unit is no part of the base. -/
theorem base_trigger (s : State) (x : Trigger) : ({ s with trigger := x } : State).base = s.base := rfl

/-- The candidate list is no part of the base. -/
@[simp] theorem base_candidates (s : State) (x : List Candidate) :
    ({ s with candidates := x } : State).base = s.base := rfl

/-- The intake unit is no part of the base. -/
theorem base_intake (s : State) (x : Intake) : ({ s with intake := x } : State).base = s.base := rfl

/-- A fold of operations that keep the base keeps it. -/
theorem foldl_base {α : Type} (f : State → α → State) (h : ∀ s x, (f s x).base = s.base) (l : List α) (s : State) :
    (l.foldl f s).base = s.base := by
  induction l generalizing s with
  | nil => rfl
  | cons x xs ih => rw [List.foldl_cons, ih, h]

/-- The parked list and its flags are no part of the base. -/
theorem park_base (s : State) (n : Notice) : ({ s with control := s.control.park n } : State).base = s.base := by
  unfold Control.park State.base
  split <;> rfl

@[simp] theorem modPos_base (s : State) (p : Pos) (f : PosRec → PosRec) :
    (s.modPos p f).base = s.base := by
  simp [State.base]

@[simp] theorem mapPos_base (s : State) (f : Pos → PosRec → PosRec) :
    (s.mapPos f).base = s.base := by
  simp [State.base]

@[simp] theorem addWrite_base (s : State) (o : Nat) (d : Word) (g : Origin) :
    (s.addWrite o d g).base = s.base := by
  unfold State.addWrite
  try dsimp only
  repeat' split
  all_goals first | (simp; done) | (simp [State.base]; done) | rfl

@[simp] theorem placeNotice_base (s : State) (n : Notice) :
    (s.placeNotice n).base = s.base := by
  unfold State.placeNotice
  have hf : ∀ (l : List KeptWrite) (u : State),
      (l.foldl (fun (t : State) (w : KeptWrite) => t.addWrite w.offset w.data .notice) u).base = u.base :=
    fun l u => foldl_base _ (fun t w => addWrite_base t _ _ _) l u
  dsimp only
  split
  · exact base_notices s _
  · rw [base_notices]
    exact hf _ s

@[simp] theorem raise_base (s : State) (n : Notice) :
    (s.raise n).base = s.base := by
  unfold State.raise
  split
  · rfl
  · exact placeNotice_base s n
  · exact park_base s n
  · exact park_base s n
  · exact park_base s n

@[simp] theorem notify_base (s : State) (k : NoticeKind) (p : Option Pos) (t : Byte) (i : SensorId) (v : Word) :
    (s.notify k p t i v).base = s.base := by
  unfold State.notify
  try dsimp only
  repeat' split
  all_goals first | (simp; done) | (simp [State.base]; done) | rfl

@[simp] theorem refreshOutputs_base (s : State) (a : Bool) :
    (s.refreshOutputs a).base = s.base := by
  unfold State.refreshOutputs
  try dsimp only
  repeat' split
  all_goals first | (simp; done) | (simp [State.base]; done) | rfl

@[simp] theorem setAlert_base (s : State) (p : Pos) (k : AlertKind) (r : AlertRec) (a : Bool) :
    (s.setAlert p k r a).base = s.base := by
  unfold State.setAlert
  try dsimp only
  repeat' split
  all_goals first | (simp; done) | (simp [State.base]; done) | rfl

@[simp] theorem alertNotice_base (s : State) (n : NoticeKind) (p : Pos) (k : AlertKind) (l : Level) (v : Int) :
    (s.alertNotice n p k l v).base = s.base := by
  unfold State.alertNotice
  try dsimp only
  repeat' split
  all_goals first | (simp; done) | (simp [State.base]; done) | rfl

@[simp] theorem applyMove_base (s : State) (p : Pos) (k : AlertKind) (m : AlertRec × AlertEvent) (v : Int) :
    (s.applyMove p k m v).base = s.base := by
  unfold State.applyMove
  try dsimp only
  repeat' split
  all_goals first | (simp; done) | (simp [State.base]; done) | rfl

@[simp] theorem evaluate_base (s : State) (p : Pos) (k : AlertKind) (r : EvalResult) (v : Int) :
    (s.evaluate p k r v).base = s.base := by
  unfold State.evaluate
  try dsimp only
  repeat' split
  all_goals first | (simp; done) | (simp [State.base]; done) | rfl

@[simp] theorem evalLow_base (s : State) (p : Pos) (x : Sample) :
    (s.evalLow p x).base = s.base := by
  unfold State.evalLow
  try dsimp only
  repeat' split
  all_goals first | (simp; done) | (simp [State.base]; done) | rfl

@[simp] theorem evalHigh_base (s : State) (p : Pos) (x : Sample) :
    (s.evalHigh p x).base = s.base := by
  unfold State.evalHigh
  try dsimp only
  repeat' split
  all_goals first | (simp; done) | (simp [State.base]; done) | rfl

@[simp] theorem evalHot_base (s : State) (p : Pos) (x : Sample) :
    (s.evalHot p x).base = s.base := by
  unfold State.evalHot
  try dsimp only
  repeat' split
  all_goals first | (simp; done) | (simp [State.base]; done) | rfl

@[simp] theorem evalSensor_base (s : State) (p : Pos) (x : Sample) :
    (s.evalSensor p x).base = s.base := by
  unfold State.evalSensor
  try dsimp only
  repeat' split
  all_goals first | (simp; done) | (simp [State.base]; done) | rfl

@[simp] theorem evalMismatch_base (s : State) (p : Pos) :
    (s.evalMismatch p).base = s.base := by
  unfold State.evalMismatch
  try dsimp only
  repeat' split
  all_goals first | (simp; done) | (simp [State.base]; done) | rfl

@[simp] theorem evalAlertTelegram_base (s : State) (p : Pos) :
    (s.evalAlertTelegram p).base = s.base := by
  unfold State.evalAlertTelegram
  try dsimp only
  repeat' split
  all_goals first | (simp; done) | (simp [State.base]; done) | rfl

@[simp] theorem evalLeak_base (s : State) (p : Pos) (q : Int) :
    (s.evalLeak p q).base = s.base := by
  unfold State.evalLeak
  try dsimp only
  repeat' split
  all_goals first | (simp; done) | (simp [State.base]; done) | rfl

@[simp] theorem evaluateSample_base (s : State) (p : Pos) (x : Sample) :
    (s.evaluateSample p x).base = s.base := by
  unfold State.evaluateSample
  try dsimp only
  repeat' split
  all_goals first | (simp; done) | (simp [State.base]; done) | rfl

@[simp] theorem beginSilent_base (s : State) (p : Pos) :
    (s.beginSilent p).base = s.base := by
  unfold State.beginSilent
  try dsimp only
  repeat' split
  all_goals first | (simp; done) | (simp [State.base]; done) | rfl

@[simp] theorem endSilent_base (s : State) (p : Pos) :
    (s.endSilent p).base = s.base := by
  unfold State.endSilent
  try dsimp only
  repeat' split
  all_goals first | (simp; done) | (simp [State.base]; done) | rfl

@[simp] theorem withdraw_base (s : State) (p : Pos) (k : AlertKind) :
    (s.withdraw p k).base = s.base := by
  unfold State.withdraw
  try dsimp only
  repeat' split
  all_goals first | (simp; done) | (simp [State.base]; done) | rfl

@[simp] theorem withdrawAll_base (s : State) (p : Pos) :
    (s.withdrawAll p).base = s.base := by
  unfold State.withdrawAll
  rw [modPos_base, foldl_base _ (fun t k => withdraw_base t p k)]

@[simp] theorem ackOne_base (s : State) (p : Pos) (k : AlertKind) :
    (s.ackOne p k).base = s.base := by
  unfold State.ackOne
  try dsimp only
  repeat' split
  all_goals first | (simp; done) | (simp [State.base]; done) | rfl

@[simp] theorem ackPosition_base (s : State) (m : Word) (p : Pos) :
    (s.ackPosition m p).base = s.base := by
  unfold State.ackPosition
  refine foldl_base _ (fun t k => ?_) _ s
  split
  · exact ackOne_base t p k
  · rfl

@[simp] theorem offer_base (s : State) (r : Request) :
    (s.offer r).base = s.base := by
  unfold State.offer
  try dsimp only
  repeat' split
  all_goals first | (simp; done) | (simp [State.base]; done) | rfl

@[simp] theorem offerEach_base (s : State) (cs : List Coil) (u : Purpose) (t : Byte) :
    (s.offerEach cs u t).base = s.base := by
  unfold State.offerEach
  exact foldl_base _ (fun t c => offer_base t _) _ s

@[simp] theorem dropRecords_base (s : State) (g : FireRec → Bool) :
    (s.dropRecords g).base = s.base := by
  unfold State.dropRecords
  try dsimp only
  repeat' split
  all_goals first | (simp; done) | (simp [State.base]; done) | rfl

@[simp] theorem tearDown_base (s : State) (g : Coil → Bool) :
    (s.tearDown g).base = s.base := by
  unfold State.tearDown
  dsimp only
  rw [base_trigger, dropRecords_base]

@[simp] theorem announcePersistent_base (s : State) (e : Candidate) :
    (s.announcePersistent e).base = s.base := by
  unfold State.announcePersistent
  try dsimp only
  repeat' split
  all_goals first | (simp; done) | (simp [State.base]; done) | rfl

@[simp] theorem receiveCandidate_base (s : State) (t : RecentEntry) :
    (s.receiveCandidate t).base = s.base := by
  unfold State.receiveCandidate
  try dsimp only
  repeat' split
  all_goals first | (simp; done) | (simp [State.base]; done) | rfl

@[simp] theorem removeCandidate_base (s : State) (i : SensorId) :
    (s.removeCandidate i).base = s.base := by
  unfold State.removeCandidate
  try dsimp only
  repeat' split
  all_goals first | (simp; done) | (simp [State.base]; done) | rfl

@[simp] theorem ageCandidates_base (s : State) :
    (s.ageCandidates).base = s.base := by
  unfold State.ageCandidates
  try dsimp only
  repeat' split
  all_goals first | (simp; done) | (simp [State.base]; done) | rfl

@[simp] theorem forgetCandidates_base (s : State) :
    (s.forgetCandidates).base = s.base := by
  unfold State.forgetCandidates
  try dsimp only
  repeat' split
  all_goals first | (simp; done) | (simp [State.base]; done) | rfl

@[simp] theorem locateSilent_base (s : State) (p : Pos) :
    (s.locateSilent p).base = s.base := by
  unfold State.locateSilent
  try dsimp only
  repeat' split
  all_goals first | (simp; done) | (simp [State.base]; done) | rfl

@[simp] theorem expire_base (s : State) (p : Pos) :
    (s.expire p).base = s.base := by
  unfold State.expire
  try dsimp only
  repeat' split
  all_goals first | (simp; done) | (simp [State.base]; done) | rfl

@[simp] theorem expireIfReached_base (s : State) (p : Pos) :
    (s.expireIfReached p).base = s.base := by
  unfold State.expireIfReached
  try dsimp only
  repeat' split
  all_goals first | (simp; done) | (simp [State.base]; done) | rfl

@[simp] theorem setInterval_base (s : State) (p : Pos) (e : Nat) :
    (s.setInterval p e).base = s.base := by
  unfold State.setInterval
  try dsimp only
  repeat' split
  all_goals first | (simp; done) | (simp [State.base]; done) | rfl

@[simp] theorem clampInterval_base (s : State) (p : Pos) :
    (s.clampInterval p).base = s.base := by
  unfold State.clampInterval
  try dsimp only
  repeat' split
  all_goals first | (simp; done) | (simp [State.base]; done) | rfl

@[simp] theorem clampAll_base (s : State) :
    (s.clampAll).base = s.base := by
  unfold State.clampAll
  exact foldl_base _ clampInterval_base _ s

@[simp] theorem arm_base (s : State) (p : Pos) (b : Time) :
    (s.arm p b).base = s.base := by
  unfold State.arm
  try dsimp only
  repeat' split
  all_goals first | (simp; done) | (simp [State.base]; done) | rfl

@[simp] theorem startBinding_base (s : State) (p : Pos) (h : Option (Nat × Bool)) :
    (s.startBinding p h).base = s.base := by
  unfold State.startBinding
  try dsimp only
  repeat' split
  all_goals first | (simp; done) | (simp [State.base]; done) | rfl

@[simp] theorem takeInterval_base (s : State) (p : Pos) (e : Nat) (g : Int) :
    (s.takeInterval p e g).base = s.base := by
  unfold State.takeInterval
  try dsimp only
  repeat' split
  all_goals first | (simp; done) | (simp [State.base]; done) | rfl

@[simp] theorem takeLongGap_base (s : State) (p : Pos) (e : Nat) (g : Int) :
    (s.takeLongGap p e g).base = s.base := by
  unfold State.takeLongGap
  try dsimp only
  repeat' split
  all_goals first | (simp; done) | (simp [State.base]; done) | rfl

@[simp] theorem gapTest_base (s : State) (p : Pos) (a : Time) :
    (s.gapTest p a).base = s.base := by
  unfold State.gapTest
  try dsimp only
  repeat' split
  all_goals first | (simp; done) | (simp [State.base]; done) | rfl

@[simp] theorem track_base (s : State) (p : Pos) (k : TelegramKind) (a : Time) :
    (s.track p k a).base = s.base := by
  unfold State.track
  try dsimp only
  repeat' split
  all_goals first | (simp; done) | (simp [State.base]; done) | rfl

@[simp] theorem dropDrifts_base (s : State) :
    (s.dropDrifts).base = s.base := by
  unfold State.dropDrifts
  try dsimp only
  repeat' split
  all_goals first | (simp; done) | (simp [State.base]; done) | rfl

@[simp] theorem recomputeDeadlines_base (s : State) :
    (s.recomputeDeadlines).base = s.base := by
  unfold State.recomputeDeadlines
  exact foldl_base _ expireIfReached_base _ s

@[simp] theorem cancelDeadlines_base (s : State) :
    (s.cancelDeadlines).base = s.base := by
  unfold State.cancelDeadlines
  try dsimp only
  repeat' split
  all_goals first | (simp; done) | (simp [State.base]; done) | rfl

@[simp] theorem armAll_base (s : State) :
    (s.armAll).base = s.base := by
  unfold State.armAll
  try dsimp only
  repeat' split
  all_goals first | (simp; done) | (simp [State.base]; done) | rfl

@[simp] theorem clearClaims_base (s : State) (i : SensorId) :
    (s.clearClaims i).base = s.base := by
  unfold State.clearClaims
  try dsimp only
  repeat' split
  all_goals first | (simp; done) | (simp [State.base]; done) | rfl

@[simp] theorem clearRecheck_base (s : State) (p : Pos) (c : Cause) :
    (s.clearRecheck p c).base = s.base := by
  unfold State.clearRecheck
  try dsimp only
  repeat' split
  all_goals first | (simp; done) | (simp [State.base]; done) | rfl

@[simp] theorem enter_base (s : State) (p : Pos) (b : BindState) :
    (s.enter p b).base = s.base := by
  unfold State.enter
  try dsimp only
  repeat' split
  all_goals first | (simp; done) | (simp [State.base]; done) | rfl

@[simp] theorem withdrawPair_base (s : State) (p : Pos) :
    (s.withdrawPair p).base = s.base := by
  unfold State.withdrawPair
  try dsimp only
  repeat' split
  all_goals first | (simp; done) | (simp [State.base]; done) | rfl

@[simp] theorem giveUp_base (s : State) (p : Pos) (b : BindState) (c : Cause) :
    (s.giveUp p b c).base = s.base := by
  unfold State.giveUp
  try dsimp only
  repeat' split
  all_goals first | (simp; done) | (simp [State.base]; done) | rfl

@[simp] theorem takeId_base (s : State) (p : Pos) (i : SensorId) (c : Cause) :
    (s.takeId p i c).base = s.base := by
  unfold State.takeId
  try dsimp only
  repeat' split
  all_goals first | (simp; done) | (simp [State.base]; done) | rfl

@[simp] theorem exchange_base (s : State) (p q : Pos) (c : Cause) :
    (s.exchange p q c).base = s.base := by
  unfold State.exchange
  try dsimp only
  repeat' split
  all_goals first | (simp; done) | (simp [State.base]; done) | rfl

@[simp] theorem markOutOfCare_base (s : State) (p : Pos) :
    (s.markOutOfCare p).base = s.base := by
  unfold State.markOutOfCare
  try dsimp only
  repeat' split
  all_goals first | (simp; done) | (simp [State.base]; done) | rfl

@[simp] theorem settleSilent_base (s : State) (p : Pos) (b : BindState) :
    (s.settleSilent p b).base = s.base := by
  unfold State.settleSilent
  try dsimp only
  repeat' split
  all_goals first | (simp; done) | (simp [State.base]; done) | rfl

@[simp] theorem bindOwn_base (s : State) (p : Pos) (i : SensorId) (t : Byte) :
    (s.bindOwn p i t).base = s.base := by
  unfold State.bindOwn
  try dsimp only
  repeat' split
  all_goals first | (simp; done) | (simp [State.base]; done) | rfl

@[simp] theorem loseTo_base (s : State) (q : Pos) (i : SensorId) (t : Byte) :
    (s.loseTo q i t).base = s.base := by
  unfold State.loseTo
  try dsimp only
  repeat' split
  all_goals first | (simp; done) | (simp [State.base]; done) | rfl

@[simp] theorem bindOther_base (s : State) (p : Pos) (i : SensorId) (t : Byte) :
    (s.bindOther p i t).base = s.base := by
  unfold State.bindOther
  try dsimp only
  repeat' split
  all_goals first | (simp; done) | (simp [State.base]; done) | rfl

@[simp] theorem commandBind_base (s : State) (p : Pos) (i : SensorId) (t : Byte) :
    (s.commandBind p i t).1.base = s.base := by
  unfold State.commandBind
  try dsimp only
  repeat' split
  all_goals first | (simp; done) | (simp [State.base]; done) | rfl

@[simp] theorem commandUnbind_base (s : State) (p : Pos) (t : Byte) :
    (s.commandUnbind p t).1.base = s.base := by
  unfold State.commandUnbind
  try dsimp only
  repeat' split
  all_goals first | (simp; done) | (simp [State.base]; done) | rfl

@[simp] theorem swapPositions_base (s : State) (p q : Pos) (t : Byte) :
    (s.swapPositions p q t).base = s.base := by
  unfold State.swapPositions
  try dsimp only
  repeat' split
  all_goals first | (simp; done) | (simp [State.base]; done) | rfl

@[simp] theorem commandSwap_base (s : State) (p : Pos) (w : Word) (t : Byte) :
    (s.commandSwap p w t).1.base = s.base := by
  unfold State.commandSwap
  try dsimp only
  repeat' split
  all_goals first | (simp; done) | (simp [State.base]; done) | rfl

@[simp] theorem detachOne_base (s : State) (p : Pos) :
    (s.detachOne p).base = s.base := by
  unfold State.detachOne
  try dsimp only
  repeat' split
  all_goals first | (simp; done) | (simp [State.base]; done) | rfl

@[simp] theorem detachTrailer_base (s : State) :
    (s.detachTrailer).base = s.base := by
  unfold State.detachTrailer
  dsimp only
  rw [foldl_base _ (fun t p => notify_base t _ _ _ _ _), foldl_base _ detachOne_base]

@[simp] theorem leaveUse_base (s : State) (p : Pos) (b : BindState) :
    (s.leaveUse p b).base = s.base := by
  unfold State.leaveUse
  try dsimp only
  repeat' split
  all_goals first | (simp; done) | (simp [State.base]; done) | rfl

@[simp] theorem enterUse_base (s : State) (p : Pos) :
    (s.enterUse p).base = s.base := by
  unfold State.enterUse
  try dsimp only
  repeat' split
  all_goals first | (simp; done) | (simp [State.base]; done) | rfl

@[simp] theorem relayPosition_base (o n : Word) (s : State) (p : Pos) :
    (State.relayPosition o n s p).base = s.base := by
  unfold State.relayPosition
  repeat' split
  all_goals first | (simp; done) | rfl

@[simp] theorem relayAxlePosition_base (o n : Word) (s : State) (p : Pos) :
    (State.relayAxlePosition o n s p).base = s.base := by
  unfold State.relayAxlePosition
  dsimp only
  repeat' split
  all_goals first | (simp; done) | rfl

@[simp] theorem takeLayout_base (s : State) (o n : Word) :
    (s.takeLayout o n).base = s.base := by
  unfold State.takeLayout
  dsimp only
  rw [offerEach_base, clampAll_base, foldl_base _ (relayAxlePosition_base o n), tearDown_base,
    foldl_base _ (relayPosition_base o n)]

@[simp] theorem leaveRunPositions_base (s : State) :
    (s.leaveRunPositions).base = s.base := by
  unfold State.leaveRunPositions
  try dsimp only
  repeat' split
  all_goals first | (simp; done) | (simp [State.base]; done) | rfl

@[simp] theorem fillSample_base (s : State) (p : Pos) (t : RecentEntry) :
    (s.fillSample p t).base = s.base := by
  unfold State.fillSample
  try dsimp only
  repeat' split
  all_goals first | (simp; done) | (simp [State.base]; done) | rfl

@[simp] theorem applySample_base (s : State) (p : Pos) (t : RecentEntry) :
    (s.applySample p t).base = s.base := by
  unfold State.applySample
  try dsimp only
  repeat' split
  all_goals first | (simp; done) | (simp [State.base]; done) | rfl

@[simp] theorem locating_base (s : State) (c : Coil) :
    (s.locating c).base = s.base := by
  unfold State.locating
  try dsimp only
  repeat' split
  all_goals first | (simp; done) | (simp [State.base]; done) | rfl

@[simp] theorem startFire_base (s : State) (r : Request) :
    (s.startFire r).base = s.base := by
  unfold State.startFire
  try dsimp only
  repeat' split
  all_goals first | (simp; done) | (simp [State.base]; done) | rfl

@[simp] theorem schedule_base (s : State) :
    (s.schedule).base = s.base := by
  unfold State.schedule
  try dsimp only
  repeat' split
  all_goals first | (simp; done) | (simp [State.base]; done) | rfl

@[simp] theorem offerAnswer_base (s : State) (i : SensorId) (e l : BitVec 4) (a : Time) :
    (s.offerAnswer i e l a).base = s.base := by
  unfold State.offerAnswer
  try dsimp only
  repeat' split
  all_goals first | (simp; done) | (simp [State.base]; done) | rfl

@[simp] theorem confirm_base (s : State) (p : Pos) (t : Byte) :
    (s.confirm p t).base = s.base := by
  unfold State.confirm
  try dsimp only
  repeat' split
  all_goals first | (simp; done) | (simp [State.base]; done) | rfl

@[simp] theorem exchangeWithin_base (s : State) (c : Coil) (t : Byte) :
    (s.exchangeWithin c t).base = s.base := by
  unfold State.exchangeWithin
  try dsimp only
  repeat' split
  all_goals first | (simp; done) | (simp [State.base]; done) | rfl

@[simp] theorem exchangeByClaim_base (s : State) (p q : Pos) (t : Byte) :
    (s.exchangeByClaim p q t).base = s.base := by
  unfold State.exchangeByClaim
  try dsimp only
  repeat' split
  all_goals first | (simp; done) | (simp [State.base]; done) | rfl

@[simp] theorem moveTo_base (s : State) (p q : Pos) (x : SensorId) (t : Byte) :
    (s.moveTo p q x t).base = s.base := by
  unfold State.moveTo
  try dsimp only
  repeat' split
  all_goals first | (simp; done) | (simp [State.base]; done) | rfl

@[simp] theorem claimFor_base (s : State) (c : Coil) (p q : Pos) (x : SensorId) (t : Byte) :
    (s.claimFor c p q x t).base = s.base := by
  unfold State.claimFor
  try dsimp only
  repeat' split
  all_goals first | (simp; done) | (simp [State.base]; done) | rfl

@[simp] theorem bindOrReplace_base (s : State) (p : Pos) (x : SensorId) (t : Byte) :
    (s.bindOrReplace p x t).base = s.base := by
  unfold State.bindOrReplace
  try dsimp only
  repeat' split
  all_goals first | (simp; done) | (simp [State.base]; done) | rfl

@[simp] theorem slotOutcome_base (s : State) (c : Coil) (p : Pos) (x : SensorId) (t : Byte) :
    (s.slotOutcome c p x t).base = s.base := by
  unfold State.slotOutcome
  try dsimp only
  repeat' split
  all_goals first | (simp; done) | (simp [State.base]; done) | rfl

@[simp] theorem settleSlots_base (c : Coil) (t : Byte) (asg l : List (Pos × SensorId)) (s : State) :
    (State.settleSlots c t asg l s).base = s.base := by
  induction l generalizing s with
  | nil => rfl
  | cons a rest ih =>
    unfold State.settleSlots
    split
    · simp
    · rw [ih]; simp

@[simp] theorem failSlot_base (s : State) (p : Pos) (t : Byte) :
    (s.failSlot p t).base = s.base := by
  unfold State.failSlot
  try dsimp only
  repeat' split
  all_goals first | (simp; done) | (simp [State.base]; done) | rfl

@[simp] theorem settleClaim_base (w : List SensorId) (t : Byte) (s : State) (p : Pos) :
    (State.settleClaim w t s p).base = s.base := by
  unfold State.settleClaim
  repeat' split
  all_goals first | (simp; done) | rfl

@[simp] theorem complete_base (s : State) (c : Coil) (w : List SensorId) (t : Byte) :
    (s.complete c w t).base = s.base := by
  unfold State.complete
  dsimp only
  rw [mapPos_base, foldl_base _ (settleClaim_base w t)]

@[simp] theorem finalOutcome_base (s : State) (r : FireRec) :
    (s.finalOutcome r).base = s.base := by
  unfold State.finalOutcome
  dsimp only
  refine foldl_base _ (fun t p => ?_) _ s
  split
  · exact confirm_base t p _
  · exact failSlot_base t p _

@[simp] theorem judgeRecord_base (s : State) (r : FireRec) :
    (s.judgeRecord r).base = s.base := by
  unfold State.judgeRecord
  try dsimp only
  repeat' split
  all_goals first | (simp; done) | (simp [State.base]; done) | rfl

@[simp] theorem classify_base (s : State) (r : FireRec) :
    (s.classify r).base = s.base := by
  unfold State.classify
  try dsimp only
  repeat' split
  all_goals first | (simp; done) | (simp [State.base]; done) | rfl

@[simp] theorem offerRechecks_base (s : State) :
    (s.offerRechecks).base = s.base := by
  unfold State.offerRechecks
  try dsimp only
  repeat' split
  all_goals first | (simp; done) | (simp [State.base]; done) | rfl

@[simp] theorem offerAttaches_base (s : State) :
    (s.offerAttaches).base = s.base := by
  unfold State.offerAttaches
  try dsimp only
  repeat' split
  all_goals first | (simp; done) | (simp [State.base]; done) | rfl

@[simp] theorem offerCommands_base (s : State) (cs : List Coil) (t : Byte) :
    (s.offerCommands cs t).1.base = s.base := by
  unfold State.offerCommands
  try dsimp only
  repeat' split
  all_goals first | (simp; done) | (simp [State.base]; done) | rfl

@[simp] theorem commandLocateOne_base (s : State) (p : Pos) (t : Byte) :
    (s.commandLocateOne p t).1.base = s.base := by
  unfold State.commandLocateOne
  try dsimp only
  repeat' split
  all_goals first | (simp; done) | (simp [State.base]; done) | rfl

@[simp] theorem commandLocateAll_base (s : State) (t : Byte) :
    (s.commandLocateAll t).1.base = s.base := by
  unfold State.commandLocateAll
  try dsimp only
  repeat' split
  all_goals first | (simp; done) | (simp [State.base]; done) | rfl

@[simp] theorem commandRecheck_base (s : State) (t : Byte) :
    (s.commandRecheck t).1.base = s.base := by
  unfold State.commandRecheck
  try dsimp only
  repeat' split
  all_goals first | (simp; done) | (simp [State.base]; done) | rfl

@[simp] theorem followEnables_base (s : State) :
    (s.followEnables).base = s.base := by
  unfold State.followEnables
  try dsimp only
  repeat' split
  all_goals first | (simp; done) | (simp [State.base]; done) | rfl

@[simp] theorem modLane_base (s : State) (l : Lane) (f : LaneRec → LaneRec) :
    (s.modLane l f).base = s.base := by
  simp [State.base]

@[simp] theorem takeLaneMask_base (s : State) :
    (s.takeLaneMask).base = s.base := by
  unfold State.takeLaneMask
  dsimp only
  rw [base_intake, followEnables_base]

@[simp] theorem offerTriggered_base (s : State) (t : RecentEntry) :
    (s.offerTriggered t).base = s.base := by
  unfold State.offerTriggered
  try dsimp only
  repeat' split
  all_goals first | (simp; done) | (simp [State.base]; done) | rfl

@[simp] theorem route_base (s : State) (t : RecentEntry) :
    (s.route t).base = s.base := by
  unfold State.route
  try dsimp only
  repeat' split
  all_goals first | (simp; done) | (simp [State.base]; done) | rfl

@[simp] theorem settleHead_base (s : State) :
    (s.settleHead).base = s.base := by
  unfold State.settleHead
  split
  · rfl
  · rw [route_base, base_intake]

@[simp] theorem countBad_base (s : State) (l : Lane) :
    (s.countBad l).base = s.base := by
  unfold State.countBad
  try dsimp only
  repeat' split
  all_goals first | (simp; done) | (simp [State.base]; done) | rfl

@[simp] theorem countGood_base (s : State) (l : Lane) :
    (s.countGood l).base = s.base := by
  unfold State.countGood
  try dsimp only
  repeat' split
  all_goals first | (simp; done) | (simp [State.base]; done) | rfl

@[simp] theorem mergeFrame_base (s : State) (t : Payload) (l : Lane) (v : BitVec 8) :
    (s.mergeFrame t l v).base = s.base := by
  unfold State.mergeFrame
  try dsimp only
  repeat' split
  all_goals first | (simp; done) | (simp [State.base]; done) | rfl

@[simp] theorem enterFrame_base (s : State) (t : Payload) (l : Lane) (v : BitVec 8) (a : Time) :
    (s.enterFrame t l v a).base = s.base := by
  unfold State.enterFrame
  dsimp only
  rw [base_intake]
  split
  · rfl
  · exact settleHead_base s

@[simp] theorem takeGoodFrame_base (s : State) (t : Payload) (l : Lane) (v : BitVec 8) (a : Time) :
    (s.takeGoodFrame t l v a).base = s.base := by
  unfold State.takeGoodFrame
  try dsimp only
  repeat' split
  all_goals first | (simp; done) | (simp [State.base]; done) | rfl

@[simp] theorem takeDelivery_base (s : State) (l : Lane) (b : List Byte) (e : Time) (f : Bool) :
    (s.takeDelivery l b e f).base = s.base := by
  unfold State.takeDelivery
  try dsimp only
  repeat' split
  all_goals first | (simp; done) | (simp [State.base]; done) | rfl

@[simp] theorem endSettling_base (s : State) (l : Lane) :
    (s.endSettling l).base = s.base := by
  unfold State.endSettling
  try dsimp only
  repeat' split
  all_goals first | (simp; done) | (simp [State.base]; done) | rfl

@[simp] theorem settleDue_base (s : State) :
    (s.settleDue).base = s.base := by
  unfold State.settleDue
  try dsimp only
  repeat' split
  all_goals first | (simp; done) | (simp [State.base]; done) | rfl

end Sys2Proof.Machine
end

