-- ==== Sys2Proof/Laws/Memory.lean ====
section
/-! SUPPORT. The laws of the static memory: what a byte, a word or several words written read back as, what they leave
alone, and that every memory operation keeps the canonical form. -/

namespace Sys2Proof.Machine

/-! ### One byte -/

/-- A byte written leaves every other address as it was. -/
theorem memRead_memWrite_other (m : List Host.Cell) (a b : Nat) (v : Byte) (h : b ≠ a) :
    memRead (memWrite m a v) b = memRead m b := by
  induction m with
  | nil =>
    unfold memWrite
    split
    · rfl
    · simp [memRead, Ne.symm h]
  | cons c m ih =>
    obtain ⟨k, w⟩ := c
    unfold memWrite
    split
    · split
      · rfl
      · simp [memRead, Ne.symm h]
    · split
      · rename_i e
        subst e
        split
        · simp [memRead, Ne.symm h]
        · simp [memRead, Ne.symm h]
      · simp only [memRead]
        split
        · rfl
        · exact ih

/-- In a canonical memory no entry lies at or below an address that is below its first entry. -/
theorem memRead_below (m : List Host.Cell) (a : Nat) (h : ∀ c ∈ m, a < c.1) : memRead m a = unlistedByte := by
  induction m with
  | nil => rfl
  | cons c m ih =>
    obtain ⟨k, w⟩ := c
    have hk : a < k := h (k, w) (by simp)
    simp only [memRead]
    rw [if_neg (by omega)]
    exact ih (fun c hc => h c (by simp [hc]))

/-- What the canonical form says of a first entry. -/
theorem wf_cons (k : Nat) (w : Byte) (m : List Host.Cell) :
    Memory.wf ((k, w) :: m) = true ↔ w ≠ unlistedByte ∧ (∀ c ∈ m, k < c.1) ∧ Memory.wf m = true := by
  simp [Memory.wf, and_assoc]

/-- A byte written in a canonical memory reads back. -/
theorem memRead_memWrite_same (m : List Host.Cell) (a : Nat) (v : Byte) (h : Memory.wf m = true) :
    memRead (memWrite m a v) a = v := by
  induction m with
  | nil =>
    unfold memWrite
    split
    · rename_i e; rw [e]; rfl
    · simp [memRead]
  | cons c m ih =>
    obtain ⟨k, w⟩ := c
    obtain ⟨_, hk, hm⟩ := (wf_cons k w m).1 h
    unfold memWrite
    split
    · rename_i lt
      split
      · rename_i e
        rw [e]
        apply memRead_below
        intro c hc
        rcases List.mem_cons.1 hc with rfl | hc
        · exact lt
        · exact Nat.lt_trans lt (hk c hc)
      · simp [memRead]
    · split
      · rename_i e
        subst e
        split
        · rename_i e
          rw [e]
          exact memRead_below m _ hk
        · simp [memRead]
      · rename_i n
        simp only [memRead]
        rw [if_neg (fun e => n e.symm)]
        exact ih hm

/-- A byte written adds no address but its own. -/
theorem mem_memWrite (m : List Host.Cell) (a : Nat) (v : Byte) (c : Host.Cell) (h : c ∈ memWrite m a v) :
    c = (a, v) ∨ c ∈ m := by
  induction m with
  | nil =>
    unfold memWrite at h
    split at h
    · simp at h
    · simp at h; exact Or.inl h
  | cons d m ih =>
    obtain ⟨k, w⟩ := d
    unfold memWrite at h
    split at h
    · split at h
      · exact Or.inr h
      · rcases List.mem_cons.1 h with h | h
        · exact Or.inl h
        · exact Or.inr h
    · split at h
      · split at h
        · exact Or.inr (List.mem_cons_of_mem _ h)
        · rcases List.mem_cons.1 h with h | h
          · exact Or.inl h
          · exact Or.inr (List.mem_cons_of_mem _ h)
      · rcases List.mem_cons.1 h with h | h
        · exact Or.inr (by rw [h]; simp)
        · rcases ih h with h | h
          · exact Or.inl h
          · exact Or.inr (List.mem_cons_of_mem _ h)

/-- Writing a byte keeps the canonical form. -/
theorem memWrite_wf (m : List Host.Cell) (a : Nat) (v : Byte) (h : Memory.wf m = true) :
    Memory.wf (memWrite m a v) = true := by
  induction m with
  | nil =>
    unfold memWrite
    split
    · rfl
    · rename_i n
      exact (wf_cons a v []).2 ⟨n, by simp, rfl⟩
  | cons c m ih =>
    obtain ⟨k, w⟩ := c
    obtain ⟨hw, hk, hm⟩ := (wf_cons k w m).1 h
    unfold memWrite
    split
    · rename_i lt
      split
      · exact h
      · rename_i n
        refine (wf_cons a v _).2 ⟨n, ?_, h⟩
        intro c hc
        rcases List.mem_cons.1 hc with rfl | hc
        · exact lt
        · exact Nat.lt_trans lt (hk c hc)
    · rename_i nlt
      split
      · rename_i e
        subst e
        split
        · exact hm
        · rename_i n
          exact (wf_cons _ _ _).2 ⟨n, hk, hm⟩
      · rename_i ne
        refine (wf_cons k w _).2 ⟨hw, ?_, ih hm⟩
        intro c hc
        rcases mem_memWrite m a v c hc with rfl | hc
        · show k < a
          omega
        · exact hk c hc

/-! ### Words -/

/-- Writing a word keeps the canonical form. -/
theorem writeWord_wf (m : List Host.Cell) (a : Nat) (w : HostWord) (h : Memory.wf m = true) :
    Memory.wf (writeWord m a w) = true := by
  unfold writeWord
  suffices ∀ (l : List Nat) (m : List Host.Cell), Memory.wf m = true →
      Memory.wf (l.foldl (fun m i =>
        if w.enables.getLsbD i then memWrite m (a + i) (w.data.extractLsb' (8 * i) 8) else m) m) = true from
    this _ m h
  intro l
  induction l with
  | nil => intro m h; exact h
  | cons i l ih =>
    intro m h
    rw [List.foldl_cons]
    refine ih _ ?_
    split
    · exact memWrite_wf m _ _ h
    · exact h

/-- Writing words keeps the canonical form. -/
theorem writeWords_wf (ws : List HostWord) (m : List Host.Cell) (a : Nat) (h : Memory.wf m = true) :
    Memory.wf (writeWords m a ws) = true := by
  induction ws generalizing m a with
  | nil => exact h
  | cons w ws ih => exact ih _ _ (writeWord_wf m a w h)

/-- The memory after reset is canonical. -/
theorem reset_mem_wf : Memory.wf State.reset.mem = true := rfl

/-- A word written leaves every byte outside its four as it was. -/
theorem memRead_writeWord_outside (m : List Host.Cell) (a b : Nat) (w : HostWord) (h : b < a ∨ a + 4 ≤ b) :
    memRead (writeWord m a w) b = memRead m b := by
  unfold writeWord
  suffices ∀ (l : List Nat) (m : List Host.Cell), (∀ i ∈ l, i < 4) →
      memRead (l.foldl (fun m i =>
        if w.enables.getLsbD i then memWrite m (a + i) (w.data.extractLsb' (8 * i) 8) else m) m) b = memRead m b from
    this _ m (by simp)
  intro l
  induction l with
  | nil => intro m _; rfl
  | cons i l ih =>
    intro m hl
    have hi : i < 4 := hl i (by simp)
    rw [List.foldl_cons, ih _ (fun j hj => hl j (by simp [hj]))]
    split
    · exact memRead_memWrite_other m _ _ _ (by omega)
    · rfl

/-- Words written leave every byte outside them as it was. -/
theorem memRead_writeWords_outside (ws : List HostWord) (m : List Host.Cell) (a b : Nat)
    (h : b < a ∨ a + 4 * ws.length ≤ b) : memRead (writeWords m a ws) b = memRead m b := by
  induction ws generalizing m a with
  | nil => rfl
  | cons w ws ih =>
    simp only [List.length_cons] at h
    simp only [writeWords]
    rw [ih _ _ (by omega), memRead_writeWord_outside m a b w (by omega)]

/-- A byte of a word written in a canonical memory: the word's byte where the enable is on, else the byte before. -/
theorem memRead_writeWord_byte (m : List Host.Cell) (a : Nat) (w : HostWord) (h : Memory.wf m = true) (i : Fin 4) :
    memRead (writeWord m a w) (a + i.val) =
      if w.enables.getLsbD i.val then w.data.extractLsb' (8 * i.val) 8 else memRead m (a + i.val) := by
  have key : ∀ (j : Nat) (m : List Host.Cell), j ≠ i.val →
      memRead (if w.enables.getLsbD j then memWrite m (a + j) (w.data.extractLsb' (8 * j) 8) else m) (a + i.val) =
        memRead m (a + i.val) := by
    intro j m hj
    split
    · exact memRead_memWrite_other m _ _ _ (by omega)
    · rfl
  have kwf : ∀ (j : Nat) (m : List Host.Cell), Memory.wf m = true →
      Memory.wf (if w.enables.getLsbD j then memWrite m (a + j) (w.data.extractLsb' (8 * j) 8) else m) = true := by
    intro j m hm
    split
    · exact memWrite_wf m _ _ hm
    · exact hm
  have ksame : ∀ (m : List Host.Cell), Memory.wf m = true →
      memRead (if w.enables.getLsbD i.val then memWrite m (a + i.val) (w.data.extractLsb' (8 * i.val) 8) else m)
        (a + i.val) = if w.enables.getLsbD i.val then w.data.extractLsb' (8 * i.val) 8 else memRead m (a + i.val) := by
    intro m hm
    split
    · exact memRead_memWrite_same m _ _ hm
    · rfl
  unfold writeWord
  simp only [List.foldl_cons, List.foldl_nil]
  match i with
  | ⟨0, _⟩ =>
    rw [key 3 _ (by simp), key 2 _ (by simp), key 1 _ (by simp)]
    exact ksame m h
  | ⟨1, _⟩ =>
    rw [key 3 _ (by simp), key 2 _ (by simp)]
    refine (ksame _ (kwf 0 m h)).trans ?_
    rw [key 0 m (by simp)]
  | ⟨2, _⟩ =>
    rw [key 3 _ (by simp)]
    refine (ksame _ (kwf 1 _ (kwf 0 m h))).trans ?_
    rw [key 1 _ (by simp), key 0 m (by simp)]
  | ⟨3, _⟩ =>
    refine (ksame _ (kwf 2 _ (kwf 1 _ (kwf 0 m h)))).trans ?_
    rw [key 2 _ (by simp), key 1 _ (by simp), key 0 m (by simp)]

/-- A whole word written in a canonical memory reads back. -/
theorem readWord_writeWord_whole (m : List Host.Cell) (a : Nat) (d : Word) (h : Memory.wf m = true) :
    readWord (writeWord m a { enables := 15, data := d }) a = d := by
  have k := fun i => memRead_writeWord_byte m a { enables := 15, data := d } h i
  have k0 : memRead (writeWord m a { enables := 15, data := d }) a = d.extractLsb' 0 8 := by simpa using k 0
  have k1 : memRead (writeWord m a { enables := 15, data := d }) (a + 1) = d.extractLsb' 8 8 := by simpa using k 1
  have k2 : memRead (writeWord m a { enables := 15, data := d }) (a + 2) = d.extractLsb' 16 8 := by simpa using k 2
  have k3 : memRead (writeWord m a { enables := 15, data := d }) (a + 3) = d.extractLsb' 24 8 := by simpa using k 3
  unfold readWord
  rw [k0, k1, k2, k3]
  apply BitVec.eq_of_getLsbD_eq
  intro i hi
  simp only [BitVec.getLsbD_append, BitVec.getLsbD_extractLsb']
  split
  · simp [*]
  · split
    · rw [show 8 + (i - 8) = i by omega]
      simp [*]
    · split
      · rw [show 16 + (i - 8 - 8) = i by omega]
        simp [*]
      · rw [show 24 + (i - 8 - 8 - 8) = i by omega, show decide (i - 8 - 8 - 8 < 8) = true by simp; omega]
        simp

end Sys2Proof.Machine
end

