-- ==== Sys2Proof/Laws/Shell.lean ====
section
/-! SUPPORT. What the operations of the sweep unit, state control, the settings snoop and the memory path leave alone:
`State.shell` is the time, the memory, the lines and the queue of commands, which none of them changes but the few that
write memory; `State.outer` is the shell without the memory, which those leave too. -/

set_option linter.unusedTactic false
set_option linter.unreachableTactic false
set_option linter.unusedSimpArgs false

namespace Sys2Proof.Machine

/-- The time, the lines and the queue of commands. -/
structure Outer where
  now : Time
  pins : Pins
  pending : List Instr

/-- The time, the memory, the lines and the queue of commands. -/
structure Shell where
  outer : Outer
  mem : List Host.Cell

/-- The outer part of a state. -/
def State.outer (s : State) : Outer := { now := s.now, pins := s.pins, pending := s.pending }

/-- The shell of a state. -/
def State.shell (s : State) : Shell := { outer := s.outer, mem := s.mem }

/-- The same base means the same shell. -/
theorem shell_of_base {s t : State} (h : t.base = s.base) : t.shell = s.shell := by
  have h1 := congrArg Base.now h
  have h2 := congrArg Base.mem h
  have h3 := congrArg Base.pins h
  have h4 := congrArg Base.pending h
  simp only [State.base] at h1 h2 h3 h4
  simp only [State.shell, State.outer, h1, h2, h3, h4]

/-- The same shell means the same outer part. -/
theorem outer_of_shell {s t : State} (h : t.shell = s.shell) : t.outer = s.outer := congrArg Shell.outer h

/-- The same shell means the same memory. -/
theorem mem_of_shell {s t : State} (h : t.shell = s.shell) : t.mem = s.mem := congrArg Shell.mem h

/-- A fold of operations that keep the shell keeps it. -/
theorem foldl_shell {α : Type} (f : State → α → State) (h : ∀ s x, (f s x).shell = s.shell) (l : List α) (s : State) :
    (l.foldl f s).shell = s.shell := by
  induction l generalizing s with
  | nil => rfl
  | cons x xs ih => rw [List.foldl_cons, ih, h]

/-- A fold of operations that keep the outer part keeps it. -/
theorem foldl_outer {α : Type} (f : State → α → State) (h : ∀ s x, (f s x).outer = s.outer) (l : List α) (s : State) :
    (l.foldl f s).outer = s.outer := by
  induction l generalizing s with
  | nil => rfl
  | cons x xs ih => rw [List.foldl_cons, ih, h]

@[simp] theorem shell_intake (s : State) (x : Intake) : ({ s with intake := x } : State).shell = s.shell := rfl
@[simp] theorem shell_positions (s : State) (x : Vector PosRec 26) : ({ s with positions := x } : State).shell = s.shell := rfl
@[simp] theorem shell_candidates (s : State) (x : List Candidate) : ({ s with candidates := x } : State).shell = s.shell := rfl
@[simp] theorem shell_trigger (s : State) (x : Trigger) : ({ s with trigger := x } : State).shell = s.shell := rfl
@[simp] theorem shell_eval (s : State) (x : Eval) : ({ s with eval := x } : State).shell = s.shell := rfl
@[simp] theorem shell_sweep (s : State) (x : Sweep) : ({ s with sweep := x } : State).shell = s.shell := rfl
@[simp] theorem shell_path (s : State) (x : Path) : ({ s with path := x } : State).shell = s.shell := rfl
@[simp] theorem shell_snoop (s : State) (x : Snoop) : ({ s with snoop := x } : State).shell = s.shell := rfl
@[simp] theorem shell_notices (s : State) (x : NoticeWriter) : ({ s with notices := x } : State).shell = s.shell := rfl
@[simp] theorem shell_control (s : State) (x : Control) : ({ s with control := x } : State).shell = s.shell := rfl
@[simp] theorem shell_ports (s : State) (x : Ports) : ({ s with ports := x } : State).shell = s.shell := rfl
@[simp] theorem outer_intake (s : State) (x : Intake) : ({ s with intake := x } : State).outer = s.outer := rfl
@[simp] theorem outer_positions (s : State) (x : Vector PosRec 26) : ({ s with positions := x } : State).outer = s.outer := rfl
@[simp] theorem outer_candidates (s : State) (x : List Candidate) : ({ s with candidates := x } : State).outer = s.outer := rfl
@[simp] theorem outer_trigger (s : State) (x : Trigger) : ({ s with trigger := x } : State).outer = s.outer := rfl
@[simp] theorem outer_eval (s : State) (x : Eval) : ({ s with eval := x } : State).outer = s.outer := rfl
@[simp] theorem outer_sweep (s : State) (x : Sweep) : ({ s with sweep := x } : State).outer = s.outer := rfl
@[simp] theorem outer_path (s : State) (x : Path) : ({ s with path := x } : State).outer = s.outer := rfl
@[simp] theorem outer_snoop (s : State) (x : Snoop) : ({ s with snoop := x } : State).outer = s.outer := rfl
@[simp] theorem outer_notices (s : State) (x : NoticeWriter) : ({ s with notices := x } : State).outer = s.outer := rfl
@[simp] theorem outer_control (s : State) (x : Control) : ({ s with control := x } : State).outer = s.outer := rfl
@[simp] theorem outer_ports (s : State) (x : Ports) : ({ s with ports := x } : State).outer = s.outer := rfl
@[simp] theorem outer_mem (s : State) (x : List Host.Cell) : ({ s with mem := x } : State).outer = s.outer := rfl

@[simp] theorem modPos_shell (s : State) (p : Pos) (f : PosRec → PosRec) : (s.modPos p f).shell = s.shell :=
  shell_of_base (modPos_base s p f)

@[simp] theorem mapPos_shell (s : State) (f : Pos → PosRec → PosRec) : (s.mapPos f).shell = s.shell :=
  shell_of_base (mapPos_base s f)

@[simp] theorem addWrite_shell (s : State) (o : Nat) (d : Word) (g : Origin) : (s.addWrite o d g).shell = s.shell :=
  shell_of_base (addWrite_base s o d g)

@[simp] theorem notify_shell (s : State) (k : NoticeKind) (p : Option Pos) (t : Byte) (i : SensorId) (v : Word) : (s.notify k p t i v).shell = s.shell :=
  shell_of_base (notify_base s k p t i v)

@[simp] theorem placeNotice_shell (s : State) (n : Notice) : (s.placeNotice n).shell = s.shell :=
  shell_of_base (placeNotice_base s n)

@[simp] theorem evalLeak_shell (s : State) (p : Pos) (q : Int) : (s.evalLeak p q).shell = s.shell :=
  shell_of_base (evalLeak_base s p q)

@[simp] theorem ageCandidates_shell (s : State) : (s.ageCandidates).shell = s.shell :=
  shell_of_base (ageCandidates_base s)

@[simp] theorem cancelDeadlines_shell (s : State) : (s.cancelDeadlines).shell = s.shell :=
  shell_of_base (cancelDeadlines_base s)

@[simp] theorem armAll_shell (s : State) : (s.armAll).shell = s.shell :=
  shell_of_base (armAll_base s)

@[simp] theorem clampAll_shell (s : State) : (s.clampAll).shell = s.shell :=
  shell_of_base (clampAll_base s)

@[simp] theorem dropDrifts_shell (s : State) : (s.dropDrifts).shell = s.shell :=
  shell_of_base (dropDrifts_base s)

@[simp] theorem recomputeDeadlines_shell (s : State) : (s.recomputeDeadlines).shell = s.shell :=
  shell_of_base (recomputeDeadlines_base s)

@[simp] theorem refreshOutputs_shell (s : State) (a : Bool) : (s.refreshOutputs a).shell = s.shell :=
  shell_of_base (refreshOutputs_base s a)

@[simp] theorem ackPosition_shell (s : State) (m : Word) (p : Pos) : (s.ackPosition m p).shell = s.shell :=
  shell_of_base (ackPosition_base s m p)

@[simp] theorem takeLayout_shell (s : State) (o n : Word) : (s.takeLayout o n).shell = s.shell :=
  shell_of_base (takeLayout_base s o n)

@[simp] theorem leaveRunPositions_shell (s : State) : (s.leaveRunPositions).shell = s.shell :=
  shell_of_base (leaveRunPositions_base s)

@[simp] theorem takeLaneMask_shell (s : State) : (s.takeLaneMask).shell = s.shell :=
  shell_of_base (takeLaneMask_base s)

@[simp] theorem followEnables_shell (s : State) : (s.followEnables).shell = s.shell :=
  shell_of_base (followEnables_base s)

@[simp] theorem offerRechecks_shell (s : State) : (s.offerRechecks).shell = s.shell :=
  shell_of_base (offerRechecks_base s)

@[simp] theorem offerAttaches_shell (s : State) : (s.offerAttaches).shell = s.shell :=
  shell_of_base (offerAttaches_base s)

@[simp] theorem forgetCandidates_shell (s : State) : (s.forgetCandidates).shell = s.shell :=
  shell_of_base (forgetCandidates_base s)

@[simp] theorem dropRecords_shell (s : State) (g : FireRec → Bool) : (s.dropRecords g).shell = s.shell :=
  shell_of_base (dropRecords_base s g)

@[simp] theorem schedule_shell (s : State) : (s.schedule).shell = s.shell :=
  shell_of_base (schedule_base s)

@[simp] theorem commandBind_shell (s : State) (p : Pos) (i : SensorId) (t : Byte) : (s.commandBind p i t).1.shell = s.shell :=
  shell_of_base (commandBind_base s p i t)

@[simp] theorem commandUnbind_shell (s : State) (p : Pos) (t : Byte) : (s.commandUnbind p t).1.shell = s.shell :=
  shell_of_base (commandUnbind_base s p t)

@[simp] theorem commandSwap_shell (s : State) (p : Pos) (w : Word) (t : Byte) : (s.commandSwap p w t).1.shell = s.shell :=
  shell_of_base (commandSwap_base s p w t)

@[simp] theorem commandLocateOne_shell (s : State) (p : Pos) (t : Byte) : (s.commandLocateOne p t).1.shell = s.shell :=
  shell_of_base (commandLocateOne_base s p t)

@[simp] theorem commandLocateAll_shell (s : State) (t : Byte) : (s.commandLocateAll t).1.shell = s.shell :=
  shell_of_base (commandLocateAll_base s t)

@[simp] theorem commandRecheck_shell (s : State) (t : Byte) : (s.commandRecheck t).1.shell = s.shell :=
  shell_of_base (commandRecheck_base s t)

@[simp] theorem discardTrend_shell (s : State) :
    (s.discardTrend).shell = s.shell := by
  unfold State.discardTrend
  try dsimp only
  repeat' split
  all_goals first | (simp; done) | rfl | (dsimp only [State.shell]; done)

@[simp] theorem completeTrend_shell (s : State) (p : Pos) (w v : Word) :
    (s.completeTrend p w v).shell = s.shell := by
  unfold State.completeTrend
  try dsimp only
  repeat' split
  all_goals first | (simp; done) | rfl | (dsimp only [State.shell]; done)

@[simp] theorem finishTrend_shell (s : State) (t : TrendRead) :
    (s.finishTrend t).shell = s.shell := by
  unfold State.finishTrend
  try dsimp only
  repeat' split
  all_goals first | (simp; done) | rfl | (dsimp only [State.shell]; done)

@[simp] theorem trendResult_shell (s : State) (o : Nat) (w : Word) :
    (s.trendResult o w).shell = s.shell := by
  unfold State.trendResult
  dsimp only
  rw [foldl_shell _ (fun t x => finishTrend_shell t x), shell_sweep]

@[simp] theorem offerTrend_shell (s : State) (o : Nat) :
    (s.offerTrend o).shell = s.shell := by
  unfold State.offerTrend
  try dsimp only
  repeat' split
  all_goals first | (simp; done) | rfl | (dsimp only [State.shell]; done)

@[simp] theorem setUpTrend_shell (s : State) :
    (s.setUpTrend).shell = s.shell := by
  unfold State.setUpTrend
  dsimp only
  split
  · rw [foldl_shell _ (fun t x => offerTrend_shell t x), shell_sweep]
  · rfl

@[simp] theorem restartHistory_shell (s : State) :
    (s.restartHistory).shell = s.shell := by
  unfold State.restartHistory
  exact discardTrend_shell s

@[simp] theorem startPublication_shell (s : State) :
    (s.startPublication).shell = s.shell := by
  unfold State.startPublication
  exact (ageCandidates_shell s.discardTrend).trans (discardTrend_shell s)

@[simp] theorem sweepExpires_shell (s : State) :
    (s.sweepExpires).shell = s.shell := by
  unfold State.sweepExpires
  dsimp only
  split
  · rw [startPublication_shell, shell_sweep]
  · rfl

@[simp] theorem addGroup_shell (s : State) (p : Publication) (ws : List KeptWrite) :
    (s.addGroup p ws).shell = s.shell := by
  unfold State.addGroup
  try dsimp only
  repeat' split
  all_goals first | (simp; done) | rfl | (dsimp only [State.shell]; done)

@[simp] theorem capturePosition_shell (s : State) (p : Publication) (q : Pos) :
    (s.capturePosition p q).shell = s.shell := by
  unfold State.capturePosition
  try dsimp only
  repeat' split
  all_goals first | (simp; done) | rfl | (dsimp only [State.shell]; done)

@[simp] theorem captureCandidates_shell (s : State) (p : Publication) :
    (s.captureCandidates p).shell = s.shell := by
  unfold State.captureCandidates
  try dsimp only
  repeat' split
  all_goals first | (simp; done) | rfl | (dsimp only [State.shell]; done)

@[simp] theorem captureLimits_shell (s : State) (p : Publication) :
    (s.captureLimits p).shell = s.shell := by
  unfold State.captureLimits
  try dsimp only
  repeat' split
  all_goals first | (simp; done) | rfl | (dsimp only [State.shell]; done)

@[simp] theorem announceQuiet_shell (s : State) (ls : List Lane) :
    (s.announceQuiet ls).shell = s.shell := by
  unfold State.announceQuiet
  exact foldl_shell _ (fun t l => notify_shell t _ _ _ _ _) _ _

@[simp] theorem captureHeader_shell (s : State) (p : Publication) :
    (s.captureHeader p).shell = s.shell := by
  unfold State.captureHeader
  dsimp only
  rw [announceQuiet_shell, addGroup_shell]
  rfl

@[simp] theorem captureGroup_shell (s : State) (p : Publication) :
    (s.captureGroup p).shell = s.shell := by
  unfold State.captureGroup
  try dsimp only
  repeat' split
  all_goals first | (simp; done) | rfl | (dsimp only [State.shell]; done)

@[simp] theorem flipAttempt_shell (s : State) (p : Publication) :
    (s.flipAttempt p).shell = s.shell := by
  have key : ∀ (t : State) (c : Bool) (x : State → Sweep) (n : Word),
      ({ (if c = true then t.notify .holdOverridden none 0 0 n else t) with
          sweep := x (if c = true then t.notify .holdOverridden none 0 0 n else t) } : State).shell = t.shell := by
    intro t c x n
    rw [shell_sweep]
    split
    · exact notify_shell t _ _ _ _ _
    · rfl
  unfold State.flipAttempt
  dsimp only
  split
  · exact key _ _ (fun u => { u.sweep with publication := none }) _
  · rw [setUpTrend_shell]
    exact key _ _ (fun u => { u.sweep with publication := none }) _

@[simp] theorem tryFlip_shell (s : State) :
    (s.tryFlip).shell = s.shell := by
  unfold State.tryFlip
  try dsimp only
  repeat' split
  all_goals first | (simp; done) | rfl | (dsimp only [State.shell]; done)

@[simp] theorem takeHold_shell (s : State) (v : Word) :
    (s.takeHold v).shell = s.shell := by
  unfold State.takeHold
  try dsimp only
  repeat' split
  all_goals first | (simp; done) | rfl | (dsimp only [State.shell]; done)

@[simp] theorem startSweeps_shell (s : State) :
    (s.startSweeps).shell = s.shell := by
  unfold State.startSweeps
  try dsimp only
  repeat' split
  all_goals first | (simp; done) | rfl | (dsimp only [State.shell]; done)

@[simp] theorem stopSweeps_shell (s : State) :
    (s.stopSweeps).shell = s.shell := by
  unfold State.stopSweeps
  dsimp only
  rw [restartHistory_shell, shell_sweep]

@[simp] theorem writeParked_shell (s : State) :
    (s.writeParked).shell = s.shell := by
  unfold State.writeParked
  dsimp only
  rw [foldl_shell _ (fun t n => placeNotice_shell t n), shell_control]

@[simp] theorem clearQuietCounts_shell (s : State) :
    (s.clearQuietCounts).shell = s.shell := by
  unfold State.clearQuietCounts
  try dsimp only
  repeat' split
  all_goals first | (simp; done) | rfl | (dsimp only [State.shell]; done)

@[simp] theorem offerOnEntry_shell (s : State) :
    (s.offerOnEntry).shell = s.shell := by
  unfold State.offerOnEntry
  try dsimp only
  repeat' split
  all_goals first | (simp; done) | rfl | (dsimp only [State.shell]; done)

@[simp] theorem enterRun_shell (s : State) :
    (s.enterRun).shell = s.shell := by
  unfold State.enterRun
  dsimp only
  rw [offerOnEntry_shell, startSweeps_shell, armAll_shell, clearQuietCounts_shell, followEnables_shell, writeParked_shell]
  rfl

@[simp] theorem startWindow_shell (s : State) :
    (s.startWindow).shell = s.shell := by
  unfold State.startWindow
  try dsimp only
  repeat' split
  all_goals first | (simp; done) | rfl | (dsimp only [State.shell]; done)

@[simp] theorem enterWatch_shell (s : State) :
    (s.enterWatch).shell = s.shell := by
  unfold State.enterWatch
  rw [startWindow_shell]
  rfl

@[simp] theorem leaveWatch_shell (s : State) :
    (s.leaveWatch).shell = s.shell := by
  unfold State.leaveWatch
  try dsimp only
  repeat' split
  all_goals first | (simp; done) | rfl | (dsimp only [State.shell]; done)

@[simp] theorem abandonRun_shell (s : State) :
    (s.abandonRun).shell = s.shell := by
  unfold State.abandonRun
  dsimp only
  rw [cancelDeadlines_shell, shell_trigger, dropRecords_shell, leaveRunPositions_shell]

@[simp] theorem hostDown_shell (s : State) :
    (s.hostDown).shell = s.shell := by
  unfold State.hostDown
  dsimp only
  rw [enterWatch_shell]
  refine (stopSweeps_shell _).trans ?_
  split
  · exact abandonRun_shell s
  · rfl

@[simp] theorem enterReset_shell (s : State) :
    (s.enterReset).shell = s.shell := rfl

@[simp] theorem setCopy_shell (s : State) (w : SettingWord) (v : Word) :
    (s.setCopy w v).shell = s.shell := rfl

@[simp] theorem setLive_shell (s : State) (w : LiveWord) (v : Word) :
    (s.setLive w v).shell = s.shell := rfl

@[simp] theorem takeBody_shell (s : State) (b : Bool) :
    (s.takeBody b).shell = s.shell := by
  unfold State.takeBody
  try dsimp only
  repeat' split
  all_goals first | (simp; done) | rfl | (dsimp only [State.shell]; done)

@[simp] theorem restartIfChanged_shell (s : State) (o n : Word) :
    (s.restartIfChanged o n).shell = s.shell := by
  unfold State.restartIfChanged
  try dsimp only
  repeat' split
  all_goals first | (simp; done) | rfl | (dsimp only [State.shell]; done)

@[simp] theorem applySetting_shell (s : State) (w : SettingWord) (o n : Word) :
    (s.applySetting w o n).shell = s.shell := by
  cases w with
  | axleLayout => exact takeLayout_shell s o n
  | laneMask => exact takeLaneMask_shell s
  | vehicle => exact (clampAll_shell _).trans (takeBody_shell s _)
  | rollingRange => exact clampAll_shell s
  | parkedRange => exact clampAll_shell s
  | driftLimit => exact dropDrifts_shell s
  | silenceMultiple => exact recomputeDeadlines_shell s
  | ackLimit => exact refreshOutputs_shell s _
  | escAction => exact refreshOutputs_shell s _
  | sweepPeriod => exact restartIfChanged_shell s _ _
  | historyDepth => exact restartIfChanged_shell s _ _
  | _ => rfl

@[simp] theorem refuseSetting_shell (s : State) (o : Nat) (v : Word) :
    (s.refuseSetting o v).shell = s.shell := by
  unfold State.refuseSetting
  rw [notify_shell, shell_snoop]

@[simp] theorem takeSetting_shell (s : State) (w : SettingWord) (v : Word) :
    (s.takeSetting w v).shell = s.shell := by
  unfold State.takeSetting
  try dsimp only
  repeat' split
  all_goals first | (simp; done) | rfl | (dsimp only [State.shell]; done)

@[simp] theorem markLoaded_shell (s : State) (w : SettingWord) :
    (s.markLoaded w).shell = s.shell := rfl

@[simp] theorem completeLoad_shell (s : State) :
    (s.completeLoad).shell = s.shell := by
  unfold State.completeLoad
  try dsimp only
  repeat' split
  all_goals first | (simp; done) | rfl | (dsimp only [State.shell]; done)

@[simp] theorem takeLoaded_shell (s : State) (w : SettingWord) (v : Word) :
    (s.takeLoaded w v).shell = s.shell := by
  unfold State.takeLoaded
  try dsimp only
  repeat' split
  all_goals first | (simp; done) | rfl | (dsimp only [State.shell]; done)

@[simp] theorem loadResult_shell (s : State) (o : Nat) (v : Word) :
    (s.loadResult o v).shell = s.shell := by
  unfold State.loadResult
  try dsimp only
  repeat' split
  all_goals first | (simp; done) | rfl | (dsimp only [State.shell]; done)

@[simp] theorem offerLoad_shell (s : State) (w : SettingWord) :
    (s.offerLoad w).shell = s.shell := by
  unfold State.offerLoad
  try dsimp only
  repeat' split
  all_goals first | (simp; done) | rfl | (dsimp only [State.shell]; done)

@[simp] theorem startLoading_shell (s : State) :
    (s.startLoading).shell = s.shell := by
  unfold State.startLoading
  dsimp only
  rw [foldl_shell _ (fun t w => offerLoad_shell t w), followEnables_shell, shell_control]

@[simp] theorem deliverLimits_shell (s : State) (l : LimitSet) :
    (s.deliverLimits l).shell = s.shell := by
  unfold State.deliverLimits
  try dsimp only
  repeat' split
  all_goals first | (simp; done) | rfl | (dsimp only [State.shell]; done)

@[simp] theorem appendLimit_shell (s : State) (v : Int) :
    (s.appendLimit v).shell = s.shell := by
  unfold State.appendLimit
  try dsimp only
  repeat' split
  all_goals first | (simp; done) | rfl | (dsimp only [State.shell]; done)

@[simp] theorem setLoaderIndex_shell (s : State) (i : BitVec 4) :
    (s.setLoaderIndex i).shell = s.shell := rfl

@[simp] theorem clearLost_shell (s : State) :
    (s.clearLost).shell = s.shell := rfl

@[simp] theorem takeReadIndex_shell (s : State) (b : BitVec 7) :
    (s.takeReadIndex b).shell = s.shell := by
  unfold State.takeReadIndex
  try dsimp only
  repeat' split
  all_goals first | (simp; done) | rfl | (dsimp only [State.shell]; done)

@[simp] theorem writeResult_shell (s : State) (c t : Byte) (o : CmdOutcome) :
    (s.writeResult c t o).shell = s.shell := rfl

@[simp] theorem commandAck_shell (s : State) (t : Option Pos) (m : Word) :
    (s.commandAck t m).1.shell = s.shell := by
  unfold State.commandAck
  split
  · rfl
  · split
    · exact foldl_shell _ (fun t p => ackPosition_shell t m p) _ _
    · split
      · rfl
      · exact ackPosition_shell s m _

/-- A command with a position index keeps the shell where the command does. -/
theorem withPosition_shell (b : Byte) (s : State) (f : Pos → State × CmdOutcome) (h : ∀ p, (f p).1.shell = s.shell) :
    (withPosition b s f).1.shell = s.shell := by
  unfold withPosition
  split
  · exact h _
  · rfl

/-- A command with a position index or FF keeps the shell where the command does. -/
theorem withTarget_shell (b : Byte) (s : State) (f : Option Pos → State × CmdOutcome) (h : ∀ p, (f p).1.shell = s.shell) :
    (withTarget b s f).1.shell = s.shell := by
  unfold withTarget
  split
  · exact h none
  · exact withPosition_shell b s _ (fun p => h (some p))

@[simp] theorem runCommand_shell (s : State) (c t p : Byte) :
    (s.runCommand c t p).1.shell = s.shell := by
  unfold State.runCommand
  dsimp only
  split
  · exact withPosition_shell p s _ (fun q => commandBind_shell s q _ t)
  · exact withPosition_shell p s _ (fun q => commandUnbind_shell s q t)
  · exact withPosition_shell p s _ (fun q => commandSwap_shell s q _ t)
  · refine withTarget_shell p s _ (fun q => ?_)
    cases q with
    | none => exact commandLocateAll_shell s t
    | some q => exact commandLocateOne_shell s q t
  · exact commandRecheck_shell s t
  · exact withTarget_shell p s _ (fun q => commandAck_shell s q _)
  · exact forgetCandidates_shell s
  · rfl

@[simp] theorem takeCommand_shell (s : State) (m : Word) (b : Bool) :
    (s.takeCommand m b).shell = s.shell := by
  unfold State.takeCommand
  try dsimp only
  repeat' split
  all_goals first | (simp; done) | rfl | (dsimp only [State.shell]; done)

@[simp] theorem takeLive_shell (s : State) (w : LiveWord) (m : Word) (b : Bool) :
    (s.takeLive w m b).shell = s.shell := by
  unfold State.takeLive
  try dsimp only
  repeat' split
  all_goals first | (simp; done) | rfl | (dsimp only [State.shell]; done)

@[simp] theorem takeHostSetting_shell (s : State) (w : SettingWord) (h : HostWord) :
    (s.takeHostSetting w h).shell = s.shell := by
  unfold State.takeHostSetting
  try dsimp only
  repeat' split
  all_goals first | (simp; done) | rfl | (dsimp only [State.shell]; done)

@[simp] theorem takeWord_shell (s : State) (o : Nat) (h : HostWord) :
    (s.takeWord o h).shell = s.shell := by
  unfold State.takeWord
  try dsimp only
  repeat' split
  all_goals first | (simp; done) | rfl | (dsimp only [State.shell]; done)

@[simp] theorem issueHead_shell (s : State) :
    (s.issueHead).shell = s.shell := by
  unfold State.issueHead
  try dsimp only
  repeat' split
  all_goals first | (simp; done) | rfl | (dsimp only [State.shell]; done)

@[simp] theorem issueInGap_shell (s : State) :
    (s.issueInGap).shell = s.shell := by
  unfold State.issueInGap
  try dsimp only
  repeat' split
  all_goals first | (simp; done) | rfl | (dsimp only [State.shell]; done)

@[simp] theorem headWaited_shell (s : State) :
    (s.headWaited).shell = s.shell := by
  unfold State.headWaited
  try dsimp only
  repeat' split
  all_goals first | (simp; done) | rfl | (dsimp only [State.shell]; done)

@[simp] theorem report_shell (s : State) (e : QEntry) (w : Word) :
    (s.report e w).shell = s.shell := by
  unfold State.report
  try dsimp only
  repeat' split
  all_goals first | (simp; done) | rfl | (dsimp only [State.shell]; done)

@[simp] theorem reofferPublish_shell (s : State) (p : Publication) :
    (s.reofferPublish p).shell = s.shell := by
  unfold State.reofferPublish
  split
  · rfl
  · split
    · rw [addWrite_shell, shell_sweep]
    · rfl

@[simp] theorem reofferTrend_shell (s : State) :
    (s.reofferTrend).shell = s.shell := by
  unfold State.reofferTrend
  split
  · rfl
  · split
    · rw [trendResult_shell, shell_sweep]
    · split <;> rfl

@[simp] theorem reofferLoad_shell (s : State) :
    (s.reofferLoad).shell = s.shell := by
  unfold State.reofferLoad
  split
  · rfl
  · split
    · rw [takeLoaded_shell, shell_path]
    · split <;> rfl

@[simp] theorem reofferKept_shell (s : State) :
    (s.reofferKept).shell = s.shell := by
  unfold State.reofferKept
  try dsimp only
  repeat' split
  all_goals first | (simp; done) | rfl | (dsimp only [State.shell]; done)

@[simp] theorem captureNext_shell (s : State) :
    (s.captureNext).shell = s.shell := by
  unfold State.captureNext
  try dsimp only
  repeat' split
  all_goals first | (simp; done) | rfl | (dsimp only [State.shell]; done)

@[simp] theorem carryRead_shell (s : State) (a : Nat) (o : Option Nat) (e : BitVec 4) (n : Nat) :
    (s.carryRead a o e n).shell = s.shell := rfl

@[simp] theorem carrySuppressed_shell (s : State) (a : Nat) (ws : List HostWord) :
    (s.carrySuppressed a ws).shell = s.shell := rfl

@[simp] theorem takeWords_shell (s : State) (o : Nat) (ws : List HostWord) : (s.takeWords o ws).shell = s.shell := by
  induction ws generalizing s o with
  | nil => rfl
  | cons w ws ih =>
    unfold State.takeWords
    rw [ih, takeWord_shell]

/-! ### The operations that write memory -/

/-- An access that completes changes the memory as the entry says, and nothing else of the shell. -/
theorem completeAccess_shell (s : State) (b : Issued) (h : s.path.bus = some b) :
    s.completeAccess.shell = { outer := s.outer, mem := b.entry.perform s.mem b.addr } := by
  unfold State.completeAccess
  rw [h]
  dsimp only
  split
  · rw [report_shell]; rfl
  · rfl

@[simp] theorem completeAccess_outer (s : State) : s.completeAccess.outer = s.outer := by
  cases h : s.path.bus with
  | none => unfold State.completeAccess; rw [h]
  | some b => exact congrArg Shell.outer (completeAccess_shell s b h)

/-- A host write that is carried changes the memory by its words, and nothing else of the shell. -/
theorem carryWrite_shell (s : State) (a : Nat) (ws : List HostWord) :
    (s.carryWrite a ws).shell = { outer := s.outer, mem := writeWords s.mem a ws } := rfl

@[simp] theorem carry_outer (s : State) (t : BusTxn) : (s.carry t).outer = s.outer := by
  unfold State.carry
  split
  · rfl
  · rfl
  · rw [outer_of_shell (takeWords_shell _ _ _)]; rfl
  · rfl

@[simp] theorem begin_outer (s : State) (t : BusTxn) : (s.begin t).outer = s.outer := by
  unfold State.begin
  split
  · rfl
  · split
    · rw [outer_of_shell (issueHead_shell _)]; rfl
    · exact carry_outer s t

@[simp] theorem present_outer (s : State) (t : HostTxn) : (s.present t).outer = s.outer := by
  unfold State.present
  split
  · rfl
  · split
    · exact begin_outer s _
    · rfl

@[simp] theorem release_outer (s : State) : s.release.outer = s.outer := by
  unfold State.release
  split
  · rfl
  · split
    · rw [outer_of_shell (issueHead_shell _)]; rfl
    · rw [foldl_outer _ (fun t x => present_outer t x), carry_outer]
      rfl

@[simp] theorem hostWrites_outer (s : State) (a : Nat) (d : HostData) : (s.hostWrites a d).outer = s.outer :=
  present_outer s _

@[simp] theorem writesSetting_outer (s : State) (o : Nat) (w : HostWord) : (s.writesSetting o w).outer = s.outer :=
  present_outer s _

@[simp] theorem writesCommand_outer (s : State) (c : Nat) (t p u : Byte) (e : BitVec 4) :
    (s.writesCommand c t p u e).outer = s.outer :=
  present_outer s _

/-! ### The memory keeps its canonical form -/

/-- A completed access keeps the canonical form of the memory. -/
theorem completeAccess_wf (s : State) (h : Memory.wf s.mem = true) : Memory.wf s.completeAccess.mem = true := by
  cases k : s.path.bus with
  | none => unfold State.completeAccess; rw [k]; exact h
  | some b =>
    have e : s.completeAccess.mem = b.entry.perform s.mem b.addr := congrArg Shell.mem (completeAccess_shell s b k)
    rw [e]
    unfold QEntry.perform
    split
    · exact writeWord_wf _ _ _ h
    · exact h

/-- A carried host transaction keeps the canonical form of the memory. -/
theorem carry_wf (s : State) (t : BusTxn) (h : Memory.wf s.mem = true) : Memory.wf (s.carry t).mem = true := by
  unfold State.carry
  split
  · exact h
  · exact writeWords_wf _ _ _ h
  · rw [mem_of_shell (takeWords_shell _ _ _)]
    exact writeWords_wf _ _ _ h
  · exact h

/-- A host transaction that is presented keeps the canonical form of the memory. -/
theorem present_wf (s : State) (t : HostTxn) (h : Memory.wf s.mem = true) : Memory.wf (s.present t).mem = true := by
  unfold State.present
  split
  · exact h
  · split
    · unfold State.begin
      split
      · exact h
      · split
        · rw [mem_of_shell (issueHead_shell _)]; exact h
        · exact carry_wf s _ h
    · exact h

/-- A held host transaction that is released keeps the canonical form of the memory. -/
theorem release_wf (s : State) (h : Memory.wf s.mem = true) : Memory.wf s.release.mem = true := by
  have key : ∀ (l : List HostTxn) (t : State), Memory.wf t.mem = true → Memory.wf (l.foldl State.present t).mem = true := by
    intro l
    induction l with
    | nil => intro t ht; exact ht
    | cons x xs ih => intro t ht; exact ih _ (present_wf t x ht)
  unfold State.release
  split
  · exact h
  · split
    · rw [mem_of_shell (issueHead_shell _)]; exact h
    · exact key _ _ (carry_wf _ _ h)

/-! ### The host path with nothing in its way -/

/-- R172: with no transaction held, no access on the bus and no overdue head, a transaction is carried at once. -/
theorem present_free (s : State) (t : HostTxn) (h : s.path.held = none) (b : s.path.bus = none)
    (o : s.path.overdue = false) :
    (∀ x, s.resolve t = some x → s.present t = s.carry x) ∧
    (s.resolve t = none →
      s.present t = { s with ports := { s.ports with hostData := List.replicate t.wordCount 0 } }) := by
  refine ⟨fun x e => ?_, fun e => ?_⟩
  · unfold State.present State.begin
    simp [h, b, o, e]
  · unfold State.present
    simp [h, e]

/-- R163: an offset below 0x10000 from the window base lies in the window at that offset. -/
theorem windowOffset_base (s : State) (o : Nat) (h : o < 0x10000) : s.windowOffset (s.windowBase + o) = some o := by
  unfold State.windowOffset
  rw [if_pos (by omega)]
  congr 1
  omega

/-- R164: the first 0x400 bytes of the window are the settings page. -/
theorem writeClass_settings (o : Nat) (ho : o < 0x400) : (regionOf o).writeClass = .settings := by
  unfold regionOf
  rw [if_pos ho]
  rfl

/-- R164: a host write of one word of the settings page is decoded as such. -/
theorem resolve_settings (s : State) (o : Nat) (ws : List HostWord) (ho : o < 0x400) :
    s.resolve (.write (s.windowBase + o) ws) = some (.write .settings (s.windowBase + o) o ws) := by
  have h : o < 0x10000 := Nat.lt_of_lt_of_le ho (by decide)
  simp only [State.resolve]
  rw [windowOffset_base s o h]
  simp only
  rw [writeClass_settings o ho]

/-- R175: a host write of one word of the settings page that is carried at once: memory takes it, and the snoop acts. -/
theorem writesSetting_free (s : State) (o : Nat) (w : HostWord) (ho : o < 0x400) (h : s.path.held = none)
    (b : s.path.bus = none) (v : s.path.overdue = false) :
    s.writesSetting o w = (s.carryWrite (s.windowBase + o) [w]).takeWord o w := by
  rw [State.writesSetting, (present_free s _ h b v).1 _ (resolve_settings s o [w] ho)]
  simp only [State.carry, State.takeWords]

end Sys2Proof.Machine
end

