-- ==== Sys2Proof/Laws/Commands.lean ====
section
/-! SUPPORT. What a host write of a word of the settings page does when it is carried at once: the words that a merge and
the command word's fields give, and the command that the part hands to its owner in RUN (R175, R180, R181). -/

namespace Sys2Proof.Machine

/-- R175: a full-word write merges to its own data. -/
@[simp] theorem mergeBytes_whole (old d : Word) : mergeBytes old { enables := 15, data := d } = d := by
  apply BitVec.eq_of_toNat_eq
  have h := d.isLt
  simp [mergeBytes, packed, field, bits]
  omega

/-- R177: a write with no enable on merges to the copy. -/
theorem mergeBytes_none (old d : Word) : mergeBytes old { enables := 0, data := d } = old := by
  apply BitVec.eq_of_toNat_eq
  have h := old.isLt
  simp [mergeBytes, packed, field, bits]
  omega

/-- 11.2: the number that a command word is. -/
theorem commandWord_toNat (c : Nat) (t p u : Byte) :
    (commandWord c t p u).toNat = c % 256 + 256 * t.toNat + 65536 * p.toNat + 16777216 * u.toNat := by
  have ht := t.isLt
  have hp := p.isLt
  have hu := u.isLt
  simp [commandWord, packed, field]
  omega

/-- 11.2: the code of a command word. -/
theorem commandWord_code (c : Nat) (t p u : Byte) : (commandWord c t p u).extractLsb' 0 8 = BitVec.ofNat 8 c := by
  apply BitVec.eq_of_toNat_eq
  simp only [BitVec.extractLsb'_toNat, commandWord_toNat, Nat.shiftRight_zero, BitVec.toNat_ofNat]
  omega

/-- 11.2: the tag of a command word. -/
theorem commandWord_tag (c : Nat) (t p u : Byte) : (commandWord c t p u).extractLsb' 8 8 = t := by
  apply BitVec.eq_of_toNat_eq
  have ht := t.isLt
  simp only [BitVec.extractLsb'_toNat, commandWord_toNat, Nat.shiftRight_eq_div_pow]
  omega

/-- 11.2: the position byte of a command word. -/
theorem commandWord_position (c : Nat) (t p u : Byte) : (commandWord c t p u).extractLsb' 16 8 = p := by
  apply BitVec.eq_of_toNat_eq
  have ht := t.isLt
  have hp := p.isLt
  simp only [BitVec.extractLsb'_toNat, commandWord_toNat, Nat.shiftRight_eq_div_pow]
  omega

/-- R180: the state in which a command runs: memory and the copy of the command word hold the write. -/
def State.commandWritten (s : State) (w : Word) : State :=
  (s.carryWrite (s.windowBase + LiveWord.command.offset) [{ enables := 15, data := w }]).setLive .command w

/-- R180, R181: a full-word write of the command word in RUN that is carried at once hands the command to its owner and
writes the result. -/
theorem writesCommand_run (s : State) (c : Nat) (t p u : Byte) (r : s.control.op = .run) (h : s.path.held = none)
    (b : s.path.bus = none) (v : s.path.overdue = false) :
    s.writesCommand c t p u 15 =
      (((s.commandWritten (commandWord c t p u)).runCommand (BitVec.ofNat 8 c) t p).1).writeResult (BitVec.ofNat 8 c) t
        (((s.commandWritten (commandWord c t p u)).runCommand (BitVec.ofNat 8 c) t p).2) := by
  unfold State.writesCommand
  rw [writesSetting_free s _ _ (by decide) h b v]
  have e : ∀ z : State, z.control.op = .run → z.takeWord LiveWord.command.offset { enables := 15, data := commandWord c t p u } =
      (z.setLive .command (commandWord c t p u)).takeCommand (commandWord c t p u) true := by
    intro z hz
    have a : settingWordAt LiveWord.command.offset = none := by decide
    have d : liveWordAt LiveWord.command.offset = some .command := by decide
    unfold State.takeWord
    rw [if_neg (by simp [hz, OpState.takesWrites]), a, d]
    simp only [mergeBytes_whole, State.takeLive]
    rfl
  rw [e (s.carryWrite (s.windowBase + LiveWord.command.offset) _) r]
  have r' : (s.commandWritten (commandWord c t p u)).control.op = .run := r
  change (s.commandWritten (commandWord c t p u)).takeCommand (commandWord c t p u) true = _
  unfold State.takeCommand
  rw [if_neg (by intro k; exact k r'), if_neg (by simp), commandWord_code, commandWord_tag, commandWord_position]

end Sys2Proof.Machine
end

