-- ==== Sys2Proof/Laws/Formats.lean ====
section
/-! SUPPORT. What the words of the part hold: a bit field of a packed word, the bytes of a merged word, and the offsets
and data of the writes that a list of words makes. -/

namespace Sys2Proof.Machine

/-- A bit field of a packed word, where the fields fit in 32 bits. -/
theorem bits_packed (fields : List Nat) (lo width : Nat) (h : fields.sum < 2 ^ 32) :
    bits (packed fields) lo width = fields.sum / 2 ^ lo % 2 ^ width := by
  simp only [bits, packed, BitVec.toNat_ofNat, Nat.mod_eq_of_lt h]

/-- A field fits in its bits. -/
theorem field_lt (v lo width : Nat) : field v lo width < 2 ^ (lo + width) := by
  rw [field, pow_add]
  exact Nat.mul_lt_mul_of_pos_left (Nat.mod_lt _ (by positivity)) (by positivity)

/-- A flag fits in its bit. -/
theorem flag_lt (b : Bool) (lo : Nat) : flag b lo < 2 ^ (lo + 1) := by
  cases b <;> simp [flag, pow_succ]

/-- The number that four bytes make. -/
theorem packed_bytes (a b c d : Nat) :
    (packed [field a 0 8, field b 8 8, field c 16 8, field d 24 8]).toNat =
      a % 256 + 256 * (b % 256) + 65536 * (c % 256) + 16777216 * (d % 256) := by
  simp only [packed, field, BitVec.toNat_ofNat, List.sum_cons, List.sum_nil]
  omega

/-- The byte `i` of a word as the bit field that holds it. -/
theorem extractLsb'_byte (x : Word) (lo : Nat) : (x.extractLsb' lo 8).toNat = bits x lo 8 := by
  simp only [BitVec.extractLsb'_toNat, Nat.shiftRight_eq_div_pow, bits]

/-- The bytes of a merged word (R175): those whose enables are on from the host's word, the others from the copy. -/
theorem mergeBytes_byte (old : Word) (w : HostWord) (i : Fin 4) :
    (mergeBytes old w).extractLsb' (8 * i.val) 8 =
      if w.enables.getLsbD i.val then w.data.extractLsb' (8 * i.val) 8 else old.extractLsb' (8 * i.val) 8 := by
  apply BitVec.eq_of_toNat_eq
  rw [apply_ite BitVec.toNat]
  simp only [extractLsb'_byte]
  let b (k : Nat) : Nat := if w.enables.getLsbD k then bits w.data (8 * k) 8 else bits old (8 * k) 8
  have lt (k : Nat) : b k < 256 := by
    simp only [b]
    split <;> exact Nat.mod_lt _ (by decide)
  have e : (mergeBytes old w).toNat = b 0 % 256 + 256 * (b 1 % 256) + 65536 * (b 2 % 256) + 16777216 * (b 3 % 256) :=
    packed_bytes (b 0) (b 1) (b 2) (b 3)
  change bits (mergeBytes old w) (8 * i.val) 8 = b i.val
  rw [bits, e]
  have h0 := lt 0
  have h1 := lt 1
  have h2 := lt 2
  have h3 := lt 3
  generalize b = b at *
  match i with
  | ⟨0, _⟩ => simp only [Nat.mul_zero]; omega
  | ⟨1, _⟩ => simp only [Nat.mul_one]; omega
  | ⟨2, _⟩ => simp only []; omega
  | ⟨3, _⟩ => simp only []; omega

/-- Two words with the same four bytes are one word. -/
theorem eq_of_bytes {a b : Word} (h : ∀ i : Fin 4, a.extractLsb' (8 * i.val) 8 = b.extractLsb' (8 * i.val) 8) : a = b := by
  have n (i : Fin 4) := congrArg BitVec.toNat (h i)
  simp only [BitVec.extractLsb'_toNat, Nat.shiftRight_eq_div_pow] at n
  have n0 := n 0
  have n1 := n 1
  have n2 := n 2
  have n3 := n 3
  norm_num at n0 n1 n2 n3
  apply BitVec.eq_of_toNat_eq
  have := a.isLt
  have := b.isLt
  omega

/-- The data of the writes that words make are the words. -/
theorem writesFrom_data (offset : Nat) (ws : List Word) : (writesFrom offset ws).map KeptWrite.data = ws := by
  simp [writesFrom, Function.comp_def]

/-- The writes that words make stand at rising word offsets. -/
theorem writesFrom_offset (offset : Nat) (ws : List Word) :
    (writesFrom offset ws).map KeptWrite.offset = (List.range ws.length).map (fun i => offset + 4 * i) := by
  apply List.ext_getElem <;> simp [writesFrom]

end Sys2Proof.Machine
end

