-- ==== Sys2Proof/Laws/Queue.lean ====
section
/-! SUPPORT. The laws of the outbound queue (R167 to R170): what a WRITE that the queue admits does to its length, to its
WRITE offsets, and to the pending data of each offset. -/

namespace Sys2Proof.Machine

/-- An entry is a WRITE. -/
def QEntry.isWrite (e : QEntry) : Bool :=
  match e.access with
  | .write _ => true
  | .read => false

/-- The offsets of the WRITE entries, from head to tail. -/
def writeOffsets (q : List QEntry) : List Nat := (q.filter QEntry.isWrite).map QEntry.offset

/-- An offset has a pending WRITE exactly when it is among the WRITE offsets. -/
theorem pendingWrite_isSome (q : List QEntry) (o : Nat) : (pendingWrite q o).isSome = true ↔ o ∈ writeOffsets q := by
  induction q with
  | nil => simp [pendingWrite, writeOffsets]
  | cons e q ih =>
    unfold pendingWrite writeOffsets
    unfold writeOffsets at ih
    cases h : e.access with
    | read => simp [QEntry.isWrite, h, ih]
    | write d =>
      simp only [QEntry.isWrite, h, List.filter_cons, if_true, List.map_cons, List.mem_cons]
      split
      · rename_i k; simp [k]
      · rename_i k
        rw [ih]
        constructor
        · exact Or.inr
        · rintro (k' | k')
          · exact absurd k'.symm k
          · exact k'

/-- A WRITE that replaces a pending one keeps the length. -/
@[simp] theorem replaceWrite_length (q : List QEntry) (o : Nat) (d : Word) (g : Origin) :
    (replaceWrite q o d g).length = q.length := by
  induction q with
  | nil => rfl
  | cons e q ih =>
    unfold replaceWrite
    split
    · split
      · rfl
      · simp [ih]
    · simp [ih]

/-- A WRITE that replaces a pending one keeps the WRITE offsets in their places. -/
@[simp] theorem replaceWrite_writeOffsets (q : List QEntry) (o : Nat) (d : Word) (g : Origin) :
    writeOffsets (replaceWrite q o d g) = writeOffsets q := by
  induction q with
  | nil => rfl
  | cons e q ih =>
    unfold replaceWrite
    unfold writeOffsets at ih ⊢
    cases h : e.access with
    | read => simp [QEntry.isWrite, h, ih]
    | write w =>
      simp only
      split
      · simp [QEntry.isWrite, h, List.filter_cons]
      · simp [QEntry.isWrite, h, ih]

/-- The pending data of an offset after an entry joins the tail. -/
theorem pendingWrite_append (q r : List QEntry) (o : Nat) :
    pendingWrite (q ++ r) o = (pendingWrite q o).or (pendingWrite r o) := by
  induction q with
  | nil => simp [pendingWrite]
  | cons x q ih =>
    simp only [List.cons_append, pendingWrite]
    cases h : x.access with
    | read => exact ih
    | write d =>
      simp only
      split
      · rfl
      · exact ih

/-- The pending data of an offset after a WRITE to a pending one is replaced. -/
theorem pendingWrite_replaceWrite (q : List QEntry) (o p : Nat) (d : Word) (g : Origin)
    (h : (pendingWrite q o).isSome = true) :
    pendingWrite (replaceWrite q o d g) p = if p = o then some d else pendingWrite q p := by
  induction q with
  | nil => simp [pendingWrite] at h
  | cons e q ih =>
    unfold pendingWrite at h
    unfold replaceWrite
    cases k : e.access with
    | read =>
      simp only [k] at h
      simp only [pendingWrite, k]
      exact ih h
    | write w =>
      simp only [k] at h
      simp only
      by_cases x : e.offset = o
      · simp only [x, if_true, pendingWrite, k]
        by_cases y : p = o
        · simp [y]
        · simp [y, Ne.symm y]
      · simp only [x, if_false] at h ⊢
        simp only [pendingWrite, k]
        by_cases y : e.offset = p
        · have : p ≠ o := fun z => x (y.trans z)
          simp [y, this]
        · simp only [y, if_false]
          exact ih h

/-- R167: an admitted WRITE takes at most one new place. -/
theorem queueWrite_length (q : List QEntry) (o : Nat) (d : Word) (g : Origin) :
    (queueWrite q o d g).length = q.length + (if (pendingWrite q o).isSome then 0 else 1) := by
  unfold queueWrite
  split <;> simp

/-- R169: an admitted WRITE is the pending one of its offset, and no other offset's pending data changes. -/
theorem pendingWrite_queueWrite (q : List QEntry) (o p : Nat) (d : Word) (g : Origin) :
    pendingWrite (queueWrite q o d g) p = if p = o then some d else pendingWrite q p := by
  unfold queueWrite
  split
  · rename_i h
    exact pendingWrite_replaceWrite q o p d g h
  · rename_i h
    rw [pendingWrite_append]
    have h' : pendingWrite q o = none := by simpa using h
    by_cases x : p = o
    · subst x
      simp [pendingWrite, h']
    · simp [pendingWrite, x, Ne.symm x]

/-- R169: an admitted WRITE keeps the WRITE offsets distinct. -/
theorem queueWrite_nodup (q : List QEntry) (o : Nat) (d : Word) (g : Origin) (h : (writeOffsets q).Nodup) :
    (writeOffsets (queueWrite q o d g)).Nodup := by
  unfold queueWrite
  split
  · rw [replaceWrite_writeOffsets]; exact h
  · rename_i n
    have n' : o ∉ writeOffsets q := fun m => n ((pendingWrite_isSome q o).2 m)
    have e : writeOffsets (q ++ [{ access := .write d, offset := o, origin := g }]) = writeOffsets q ++ [o] := by
      simp [writeOffsets, QEntry.isWrite, List.filter_cons]
    rw [e, List.nodup_append]
    refine ⟨h, by simp, ?_⟩
    intro a ha b hb
    simp at hb
    subst hb
    exact fun x => n' (x ▸ ha)

/-- A READ that joins the tail leaves the WRITE offsets. -/
@[simp] theorem writeOffsets_read (q : List QEntry) (o : Nat) (g : Origin) :
    writeOffsets (q ++ [{ access := .read, offset := o, origin := g }]) = writeOffsets q := by
  simp [writeOffsets, QEntry.isWrite]

/-- Entries that leave the queue keep the WRITE offsets of the others distinct. -/
theorem writeOffsets_filter_nodup (q : List QEntry) (f : QEntry → Bool) (h : (writeOffsets q).Nodup) :
    (writeOffsets (q.filter f)).Nodup := by
  unfold writeOffsets at h ⊢
  refine List.Nodup.sublist ?_ h
  refine List.Sublist.map _ ?_
  rw [List.filter_filter]
  rw [show (List.filter (fun a => a.isWrite && f a) q) = List.filter f (List.filter QEntry.isWrite q) by
    rw [List.filter_filter]; congr 1; funext a; exact Bool.and_comm _ _]
  exact List.filter_sublist

end Sys2Proof.Machine
end

