-- ==== Sys2Proof/Tests/Slice0.lean ====
section
/-! SUPPORT. The tests of this model: an ill-formed term for each check of WellFormed, figures that the spec works out, one
step of many commands, and for each obligation with hypotheses a state and operands that meet them. -/

namespace Sys2Proof.Tests
set_option Elab.async false

open Sys2Proof Sys2Proof.Machine Sys2Proof.Claim

/-! ### States -/

/-- Axle 1 SINGLE, axle 2 TWIN, axle 3 SINGLE with the trailer flag, one spare. -/
def layoutWord : Word := 0x01000921

/-- The part in an operating state with the layout above, every position in use UNLEARNED. -/
def boot (op : OpState) (hup : Bool) : State :=
  { State.reset with
    positions := Vector.ofFn (fun p => if inUse layoutWord p then { PosRec.reset with state := .unlearned } else .reset)
    snoop := { Snoop.reset with settings := settingDefaults.set 0 layoutWord }
    control := { Control.reset with op := op, refHup := hup }
    pins := { Pins.reset with hup := hup } }

/-- The part in RUN. -/
def live : State := boot .run true

/-- The part in RUN with 1LO BOUND to sensor 7 and 3LO, of the trailer, BOUND to sensor 8. -/
def held : State :=
  (live.modPos 0 (fun r => { r with state := .bound, id := some 7 })).modPos 8
    (fun r => { r with state := .bound, id := some 8 })

/-- The command argument. -/
def withArgument (s : State) (w : Word) : State := s.setLive .argument w

/-- The part access on the bus. -/
def withBus (s : State) (e : QEntry) : State :=
  { s with path := { s.path with bus := some { entry := e, addr := e.offset, reported := true } } }

/-- The next state of a command, or the state itself. -/
def after (c : Instr) (s : State) : State :=
  match exec c s with
  | .next t => t
  | .fault _ => s
  | .refused _ => s

/-- A LONG PERIODIC frame of 7D019E44: motion set, sequence 12, code 500, LF 5, 60 °C, echo 0. -/
def longFrame : List Byte := [0x9C, 0x7D, 0x01, 0x9E, 0x44, 0x7D, 0x05, 0x6E, 0x00, 0xB3]

/-- A SHORT frame of the same sensor with code 470. -/
def shortFrame : List Byte := [0x1C, 0x7D, 0x01, 0x9E, 0x44, 0x75, 0x80, 0x32]

/-- What the LONG frame carries. -/
def longPayload : Payload :=
  { format := .long, kind := .periodic, seq := 12, motion := true, id := 0x7D019E44, code := 500, battery := false,
    fault := false, lf := some 5, tempCode := some 110, echo := some 0 }

/-- An entry of the recent telegram list that has been heard on lane A at time 0. -/
def entry (id : SensorId) : RecentEntry :=
  { payload := { longPayload with id := id }, firstArrival := 0, heard := { Lanes.all none with a := some 90 } }

/-- A sample of code 500 at 60 °C. -/
def sample (cold : Option Nat) : Sample :=
  { code := 500, absolute := .kPa 1000, temp := .celsius 60, cold := cold, motion := true, battery := false,
    fault := false, kind := .periodic, seq := 12, arrival := 0, accepted := 0 }

/-- The part in RUN with one settled entry of the list, lane A ON. -/
def hearing (s : State) (id : SensorId) : State :=
  { s with
    now := 500
    intake := { s.intake with recent := [entry id], lanes := { s.intake.lanes with a := { LaneRec.reset with state := .on 0 } } } }

/-- A CLOSING record of coil 1L with one response, at the end of its period. -/
def record (id : SensorId) (attempts : Nat) : FireRec :=
  { coil := 0, code := 3, purpose := .locate, tag := 0, attempts := attempts, start := 0, window := 400, closing := true,
    responses := [{ id := id, lf := 9 }], overfull := false, outOfCare := [] }

/-- The part with that record, 530 ms after the start of the fire. -/
def closing (s : State) (r : FireRec) : State :=
  { s with now := 530, trigger := { s.trigger with records := [r] } }

/-- A request of coil 1L. -/
def request : Request := { coil := 0, purpose := .locate, attempts := 0, tag := 0 }

/-- The part in RUN at a speed of 0 with one request queued. -/
def requesting : State :=
  { live with
    snoop := { live.snoop with settings := live.snoop.settings.set 7 0 }
    trigger := { live.trigger with queue := [request] } }

/-- A publication of which a number of groups has been captured. -/
def publication (groups : Nat) (kept : List KeptWrite) : Publication :=
  { number := 1, stamp := 1, column := 0, page := .b, groups := groups, kept := kept, items := [], restarted := false }

/-- The part in RUN with that publication in progress. -/
def publishing (groups : Nat) (kept : List KeptWrite) : State :=
  { live with sweep := { live.sweep with publication := some (publication groups kept) } }

/-- A notice. -/
def notice : Notice :=
  { kind := .bound, position := none, alert := none, tag := 0, id := 0, value := 0, stamp := 0 }

/-- A write of the outbound queue. -/
def entryAt (offset : Nat) (origin : Origin) : QEntry := { access := .write 0x01020304, offset := offset, origin := origin }

/-- The part in RUN with an entry of sensor 7 that arrived at 100 s, and 1LO BOUND to it with an interval of 16 s, a
reference and a drift count. -/
def tracked (ref : Time) (drift : Int) : State :=
  { (held.modPos 0 (fun r => { r with interval := some 256, reference := some ref, drift := drift })) with
    now := 100500
    intake := { held.intake with recent := [{ entry 7 with firstArrival := 100000 }] } }

/-- The part in RUN with a settled entry of sensor 9 and candidates of other sensors. -/
def listed (count : Nat) (claimed : Bool) : State :=
  { hearing held 9 with
    candidates := (List.range count).map (fun i => newCandidate (entry (BitVec.ofNat 32 (100 + i))) claimed) }

/-- The part in RUN with its records given position by position. -/
def seated (f : Pos → PosRec → PosRec) : State :=
  { live with
    positions := Vector.ofFn (fun p =>
      f p (if inUse layoutWord p then { PosRec.reset with state := .unlearned } else .reset)) }

/-- A position that holds a sensor in a state. -/
def holding (s : State) (p : Pos) (b : BindState) (id : SensorId) : State :=
  s.modPos p (fun r => { r with state := b, id := some id })

/-- A position in a state. -/
def standing (s : State) (p : Pos) (b : BindState) : State := s.modPos p (fun r => { r with state := b })

/-- A position with a move claim. -/
def claiming (s : State) (p : Pos) (id : SensorId) : State := s.modPos p (fun r => { r with claim := some id })

/-- The trailer-present reference high. -/
def coupled (s : State) : State := { s with control := { s.control with refTrl := true } }

/-- A CLOSING record of coil 2L, of the TWIN axle, with its responses. -/
def twinRecord (responses : List Response) (attempts : Nat) : FireRec :=
  { record 0 attempts with coil := 2, responses := responses }

/-- The part in RUN with the twin pair 2LO and 2LI BOUND, each with a cold pressure. -/
def paired (a b : Nat) : State :=
  ((holding (holding live 4 .bound 7) 5 .bound 8).modPos 4 (fun r => { r with sample := some (sample (some a)) })).modPos 5
    (fun r => { r with sample := some (sample (some b)) })

/-- The part in RUN with axle 1 liftable and an E of 16 s at 1LO and at 3LO. -/
def lifting : State :=
  { (held.modPos 0 (fun r => { r with interval := some 256 })).modPos 8 (fun r => { r with interval := some 256 }) with
    snoop := { held.snoop with settings := held.snoop.settings.set 0 0x01000925 } }

/-- The part in RUN with an unacknowledged ALARM and the lamp at FLASH. -/
def alarmed : State :=
  { live.modPos 0 (fun r =>
      { r with alerts := r.alerts.set .low { AlertRec.reset with state := .active, level := .alarm } }) with
    eval := { live.eval with lamp := .flash true 500 } }

/-- The lamp invariant holds with no record standing. -/
theorem lampOk_live : lampOk live := by
  refine ⟨⟨fun _ p k => by cases k <;> revert p <;> decide +kernel, fun _ => rfl⟩, ?_, ?_⟩
  · rintro ⟨d, e, h⟩
    cases h
  · have n : ∀ (k : AlertKind) (p : Pos), (live.alertAt p k).unackedAlarm ≠ true := by
      intro k
      cases k <;> decide +kernel
    rintro ⟨p, k, h⟩
    exact absurd h (n k p)

/-- The lamp invariant holds with the unacknowledged ALARM. -/
theorem lampOk_alarmed : lampOk alarmed :=
  ⟨⟨fun h => (nomatch h), fun h => absurd (h 0 .low) (by decide +kernel)⟩,
    fun _ => ⟨0, .low, by decide +kernel⟩, fun _ => ⟨true, 500, rfl⟩⟩

/-! ### WellFormed: an ill-formed term for each check -/

theorem test_wf_unaligned_read : (Instr.hostRead 0 2 15 .single).wf = false := by decide
theorem test_wf_unaligned_burst_read : (Instr.hostRead 0 4 15 .burst).wf = false := by decide
theorem test_wf_unaligned_write : (Instr.hostWrite 0 1 (.single (whole 0))).wf = false := by decide
theorem test_wf_unaligned_suppressed : (Instr.suppressedWrite 0 0x1003 (.single (whole 0))).wf = false := by decide
theorem test_wf_unaligned_setting : (Instr.settingsWrite 0 0x21 (.single (whole 0))).wf = false := by decide
theorem test_wf_setting_with_own_row : (Instr.settingsWrite 0 0x1C (.single (whole 0))).wf = false := by decide
theorem test_wf_setting : (Instr.settingsWrite 0 0x20 (.single (whole 0))).wf = true := by decide
theorem test_wf_delivery_too_soon : (Instr.delivery 0 .a [1, 2] 1 false).wf = false := by decide
theorem test_wf_delivery_empty : (Instr.delivery 0 .a [] 2 false).wf = false := by decide
theorem test_wf_code_of_a_command : (Instr.commandCodeNamesNoCommand 0 7 0 0 0 15).wf = false := by decide
theorem test_wf_code_of_no_command : (Instr.commandCodeNamesNoCommand 0 8 0 0 0 15).wf = true := by decide

/-- The table gives no row bits, so no word spells a command and placing one changes nothing. -/
theorem test_no_word_spells_a_command (n w : Nat) : decodeTableWord n w = none ∧ live.withFetchWord n w = live := ⟨rfl, rfl⟩

/-! ### Figures that the spec works out -/

/-- R28 to R32, 11.1: a LONG frame, written out byte by byte. -/
theorem test_long_frame : decodeFrame longFrame = some longPayload := by decide +kernel

/-- R28 to R32, 11.1: a SHORT frame has no temperature, LF level or echo. -/
theorem test_short_frame :
    decodeFrame shortFrame = some { longPayload with
      format := .short, code := 470, lf := none, tempCode := none, echo := none } := by decide +kernel

/-- R29, R28, R30: a wrong CRC, a wrong length, and a SHORT frame of kind TRIGGERED are malformed. -/
theorem test_malformed_frames :
    decodeFrame (longFrame.dropLast ++ [0xB2]) = none ∧ decodeFrame (longFrame ++ [0]) = none ∧
      decodeFrame [0x5C, 0x7D, 0x01, 0x9E, 0x44, 0x75, 0x80, crc [0x5C, 0x7D, 0x01, 0x9E, 0x44, 0x75, 0x80]] = none := by
  decide +kernel

/-- Worked figures of section 6.1. -/
theorem test_cold_pressures :
    coldPressure 500 60 101 = some 779 ∧ coldPressure 462 35 101 = some 778 ∧ coldPressure 470 35 101 = some 793 := by
  decide +kernel

/-- Worked sequence of section 7.6: 780 to 736 kPa over 12 sweeps of 10 s, and over 13. -/
theorem test_leak_rates : leakRate 780 736 12 10 = 220 ∧ leakRate 780 736 13 10 = 203 := by decide +kernel

/-- Worked sequence of section 7.7: depth 64, head 5, full ring, lag 0. -/
theorem test_trend_view :
    trendTarget 5 64 64 0 0xDF40 = some 0x4540 ∧ trendTarget 5 64 64 0 0xDE40 = some 0x4440 ∧
      trendTarget 5 64 64 0 0xA040 = some 0x4640 ∧ trendTarget 5 64 64 0 0xE640 = none ∧
      trendTarget 5 63 64 0 0xA040 = none := by decide +kernel

/-- Worked sequence of section 5.5: a second long gap steps E from 256 to 260 and the drift count to 0. -/
theorem test_interval_steps :
    let s := live.modPos 4 (fun r => { r with interval := some 256, drift := 1 })
    ((s.takeInterval 4 256 262400).posAt 4).interval = some 260 ∧
      ((s.takeInterval 4 256 262400).posAt 4).drift = 0 := by decide +kernel

/-- Worked sequence of section 10.2: the sixth value of a valid entry, and of a refused one. -/
theorem test_limit_loader :
    let s := { live with snoop := { live.snoop with loaderIndex := 2, partialEntry := [780, 70, 150, 110, 80] } }
    let r := { live with snoop := { live.snoop with loaderIndex := 3, partialEntry := [820, 90, 80, 130, 85] } }
    ((s.appendLimit 95).snoop.loaderIndex = 3 ∧ ((s.appendLimit 95).eval.limits.get 2).target = 780 ∧
      ((s.appendLimit 95).eval.limits.get 2).loaded = true) ∧
    ((r.appendLimit 100).snoop.loaderIndex = 3 ∧ ((r.appendLimit 100).eval.limits.get 3).target = 800 ∧
      (r.appendLimit 100).snoop.partialEntry = [] ∧ (r.appendLimit 100).notices.inRing.map Notice.kind = [.limitRefused]) := by
  decide +kernel

/-! ### One step of a command -/

theorem test_reset_exit_loads : (after (.resetExit 0) { State.reset with pins := { Pins.reset with hup := true } }).path.queue.length
    = 35 := by decide +kernel

theorem test_bind : ((after (.bind 5 9 0 0 15) (withArgument live 7)).posAt 0).id = some 7 ∧
    (after (.bind 5 9 0 0 15) (withArgument live 7)).snoop.result.outcome = .done ∧
    ((after (.bind 5 9 0 0 15) (withArgument live 7)).posAt 0).deadline = some 5 := by decide +kernel

theorem test_bind_of_spare_index_26 :
    (after (.bind 0 9 26 0 15) (withArgument live 7)).snoop.result.outcome = .refusedRange := by decide +kernel

theorem test_swap : ((after (.swap 0 1 0 0 15) (withArgument held 8)).posAt 0).id = some 8 ∧
    ((after (.swap 0 1 0 0 15) (withArgument held 8)).posAt 8).id = some 7 := by decide +kernel

theorem test_unbind : ((after (.unbind 0 1 0 0 15) held).posAt 0).state = .unlearned := by decide +kernel

theorem test_locate : (after (.locate 0 1 0 0 15) live).trigger.queue.map Request.coil = [0] := by decide +kernel

theorem test_trailer_falls :
    let s := { held with pins := { held.pins with trl := true } }
    ((after (.trailerPresentFall 0) s).posAt 8).state = .detached ∧
      ((after (.trailerPresentFall 0) s).posAt 0).state = .bound := by decide +kernel

theorem test_settled_telegram_fills_the_sample :
    ((after (.entrySettle 0) (hearing held 7)).posAt 0).cold = some 779 := by decide +kernel

theorem test_fire_starts : (after (.fireStart 0) requesting).coilActive 0 = true ∧
    (after (.fireStart 0) requesting).trigger.lastCode = 1 := by decide +kernel

theorem test_part_write_reaches_memory :
    (after (.partAccessComplete 0) (withBus live (entryAt 0x2000 .notice))).mem =
      [(0x2000, 4), (0x2001, 3), (0x2002, 2), (0x2003, 1)] := by decide +kernel

theorem test_write_of_zero_bytes_keeps_memory_canonical :
    (after (.hostWrite 0 0x500 (.single { enables := 5, data := 0x00AA00BB })) live).mem = [(0x500, 0xBB), (0x502, 0xAA)] ∧
      (after (.hostWrite 0 0x500 (.single (whole 0))) live).mem = [] := by decide +kernel

theorem test_suppressed_write : (after (.suppressedWrite 0 0x1000 (.single (whole 5))) live).mem = [] ∧
    (after (.suppressedWrite 0 0x1000 (.single (whole 5))) live).path.refused = 1 := by decide +kernel

theorem test_read_of_a_pending_word :
    let s := { live with path := { live.path with queue := [entryAt 0x4000 .publish] } }
    (after (.hostRead 0 0x4000 15 .single) s).ports.hostData = [0x01020304] := by decide +kernel

/-! ### The obligations' hypotheses can be met -/

theorem test_hypotheses_of_StepRunsTheFrontCommand :
    (∃ c rest s, (s : State).pending = c :: rest ∧ step s = exec c { s with pending := rest }) ∧ live.pending = [] :=
  ⟨⟨.headIssue 0, [], { live with pending := [.headIssue 0] }, rfl, rfl⟩, rfl⟩

theorem test_hypotheses_of_ResetEntryRestoresResetValues :
    live.control.op ≠ .reset ∧ live.path.held = none ∧ State.reset.control.op = .reset := by
  decide +kernel

theorem test_hypotheses_of_ResetExitEntersLoadingOrWatch :
    ((boot .reset true).control.op = .reset ∧ (boot .reset true).pins.hup = true ∧ (boot .reset true).path.queue = [] ∧
      (boot .reset true).path.keptLoads = []) ∧
    ((boot .reset false).control.op = .reset ∧ (boot .reset false).pins.hup = false ∧
      (boot .reset false).masked .a = false ∧ ((boot .reset false).intake.lanes.get .a).state = .off) := by
  decide +kernel

theorem test_hypotheses_of_HostUpRiseEntersRunOrLoading :
    let s := { boot .watch false with control := { (boot .watch false).control with settingsLoaded := true } }
    let u := boot .deepWatch false
    (s.pins.hup = false ∧ (s.control.op = .watch ∨ s.control.op = .deepWatch) ∧ s.control.settingsLoaded = true) ∧
    (u.pins.hup = false ∧ (u.control.op = .watch ∨ u.control.op = .deepWatch) ∧ u.control.settingsLoaded = false ∧
      u.path.queue = [] ∧ u.path.keptLoads = []) := by
  decide +kernel

theorem test_hypotheses_of_HostUpFallLeavesRun :
    let u := boot .loading true
    (live.pins.hup = true ∧ live.control.op = .run ∧ live.path.held = none) ∧
    (u.pins.hup = true ∧ u.control.op = .loading ∧ u.setting .viewLag < u.setting .historyDepth ∧ u.path.held = none) := by
  decide +kernel

theorem test_hypotheses_of_LineEdgesQueueRequests :
    (held.pins.ign = false ∧ held.control.op = .run ∧ held.available 0 = true ∧
      ∃ p ∈ servedBy held.layout 0, (held.posAt p).state = .bound) ∧
    (live.pins.trl = false ∧ live.control.op = .run ∧ coilExists live.layout 4 = true ∧
      axleTrailer live.layout (coilAxle 4) = true ∧ ∃ p ∈ servedBy live.layout 4, (live.posAt p).state = .unlearned) ∧
    ((boot .watch false).pins.ign = false ∧ (boot .watch false).pins.trl = false ∧
      (boot .watch false).control.op ≠ .run ∧ (boot .watch false).control.op ≠ .reset) ∧
    State.reset.control.op = .reset := by
  decide +kernel

theorem test_hypotheses_of_TrailerFallDetaches :
    let s := { held with pins := { held.pins with trl := true } }
    s.pins.trl = true ∧ s.control.op ≠ .reset ∧ s.detaches 8 = true := by
  decide +kernel

theorem test_hypotheses_of_SettlingLaneTurnsOn :
    let s := live.modLane .a (fun r => { r with state := .settling 20 })
    (s.intake.lanes.get .a).state = .settling 20 ∧ 20 ≤ s.now + 20 := by
  decide +kernel

theorem test_hypotheses_of_BadDeliveriesAreDiscardedOrCounted :
    let s := live.modLane .a (fun r => { r with state := .on 0 })
    (live.intake.lanes.get .a).state.heardOn (live.now + 5 - 2) true = false ∧
    (s.intake.lanes.get .a).state.heardOn (s.now + 5 - 2) true = true ∧
    ([0x9C] : List Byte).length < 2 ∧ 17 < (List.replicate 18 (0 : Byte)).length ∧
    decodeFrame (longFrame ++ [0]) = none := by
  decide +kernel

theorem test_hypotheses_of_GoodFramesMergeOrEnter :
    let s := live.modLane .a (fun r => { r with state := .on 0 })
    let u := { s with intake := { s.intake with recent := [entry 0x7D019E44] } }
    let f := { s with intake := { s.intake with
      recent := entry 1 :: (List.range 23).map (fun i => entry (BitVec.ofNat 32 (i + 2))) } }
    (s.intake.lanes.get .a).state.heardOn (s.now + 5 - 2) true = true ∧
    (u.intake.lanes.get .a).state.heardOn (u.now + 5 - 2) true = true ∧ 2 ≤ (longFrame ++ [90]).length ∧
    (longFrame ++ [90]).length ≤ 17 ∧ decodeFrame (longFrame ++ [90]).dropLast = some longPayload ∧
    u.intake.recent.any (fun e => e.keyOf longPayload) = true ∧
    s.intake.recent.any (fun e => e.keyOf longPayload) = false ∧ s.intake.recent.length < 24 ∧
    (f.intake.lanes.get .a).state.heardOn (f.now + 5 - 2) true = true ∧
    f.intake.recent.any (fun e => e.keyOf longPayload) = false ∧
    f.intake.recent = entry 1 :: f.intake.recent.tail ∧ f.intake.recent.tail.length = 23 ∧
    (f.intake.lanes.get .a).quiet = false := by
  decide +kernel

theorem test_hypotheses_of_HeldTelegramIsDroppedOrTaken :
    let s := (hearing held 7).modPos 0 (fun r => { r with sample := some (sample none) })
    let u := hearing held 7
    let c := u.modPos 0 (fun r => { r with state := .conflict })
    let d := u.modPos 0 (fun r => { r with state := .detached })
    (s.intake.recent = entry 7 :: [] ∧ (entry 7).firstArrival + 120 ≤ s.now + 0 ∧ s.holder (entry 7).payload.id = some 0 ∧
      (s.posAt 0).sample = some (sample none) ∧ (sample none).seq = (entry 7).payload.seq ∧
      s.now + 0 ≤ (sample none).accepted + 1000) ∧
    (u.intake.recent = entry 7 :: [] ∧ u.holder (entry 7).payload.id = some 0 ∧ (u.posAt 0).state = .bound ∧
      lateRepeat (u.posAt 0) (entry 7) (u.now + 0) = false ∧ (entry 7).payload.kind ≠ .triggered) ∧
    (c.intake.recent = entry 7 :: [] ∧ c.holder (entry 7).payload.id = some 0 ∧ (c.posAt 0).state = .conflict ∧
      (c.posAt 0).silent = false ∧ lateRepeat (c.posAt 0) (entry 7) (c.now + 0) = false) ∧
    (d.intake.recent = entry 7 :: [] ∧ d.holder (entry 7).payload.id = some 0 ∧ (d.posAt 0).state = .detached) := by
  decide +kernel

/-- R92 to R94: the interval of 16 s is in its range; one gap is long, one steps E up, one steps it down, one moves the drift
count only. -/
theorem test_hypotheses_of_the_gap_test_of_HeldTelegramIsDroppedOrTaken :
    let e := { entry 7 with firstArrival := 100000 }
    let s := tracked 0 0
    let range := s.rangeFor (!(s.lifted 0) && e.payload.motion)
    s.intake.recent = e :: [] ∧ e.firstArrival + 120 ≤ s.now + 0 ∧ s.holder e.payload.id = some 0 ∧
      (s.posAt 0).state = .bound ∧ lateRepeat (s.posAt 0) e (s.now + 0) = false ∧ s.control.op = .run ∧
      e.payload.kind = .periodic ∧ (s.posAt 0).reference = some 0 ∧ (s.posAt 0).interval = some 256 ∧ range.1 ≤ 256 ∧
      256 ≤ range.2 ∧ (s.posAt 0).drift.natAbs < s.setting .driftLimit ∧ 1500 * 256 < 16 * (100000 - 0 : Int) ∧
      (16 * (100000 - 83000 : Int) ≤ 1500 * 256 ∧ 1000 * 256 < 16 * (100000 - 83000 : Int) ∧
        ((tracked 83000 1).posAt 0).drift + 1 = (s.setting .driftLimit : Int)) ∧
      (16 * (100000 - 85000 : Int) < 1000 * 256 ∧
        ((tracked 85000 (-1)).posAt 0).drift - 1 = -(s.setting .driftLimit : Int)) ∧
      (((tracked 83000 0).posAt 0).drift + 1).natAbs < s.setting .driftLimit := by
  decide +kernel

theorem test_hypotheses_of_UnheldTelegramMakesACandidate :
    let s := listed 0 false
    let full := listed 32 false
    let c := newCandidate (entry 9) false
    let u := { s with candidates := [c] }
    (s.intake.recent = entry 9 :: [] ∧ (entry 9).firstArrival + 120 ≤ s.now + 0 ∧ s.holder (entry 9).payload.id = none ∧
      s.candidate (entry 9).payload.id = none ∧ s.candidates.length < 32 ∧ (entry 9).payload.kind ≠ .triggered) ∧
    ((listed 32 true).candidate 9 = none ∧ 32 ≤ (listed 32 true).candidates.length ∧
      ∀ x ∈ (listed 32 true).candidates, x.claimed = true) ∧
    (full.candidate 9 = none ∧ candidatesOk full ∧ 32 ≤ full.candidates.length ∧
      full.candidates = [] ++ newCandidate (entry 100) false :: full.candidates.tail ∧
      (newCandidate (entry 100) false).claimed = false ∧
      ∀ x ∈ full.candidates.tail, x.claimed = false → (newCandidate (entry 100) false).lastHeard ≤ x.lastHeard) ∧
    (u.intake.recent = entry 9 :: [] ∧ u.holder (entry 9).payload.id = none ∧ candidatesOk u ∧
      u.candidates = [] ++ c :: [] ∧ c.id = (entry 9).payload.id) := by
  simp only [candidatesOk]
  decide +kernel

/-- R51, R52: the telegram that makes an entry PERSISTENT, and the one that makes an entry STATIONARY. -/
theorem test_persistent_and_stationary :
    let e := { entry 9 with firstArrival := 200000 }
    let still := { e with payload := { e.payload with motion := false } }
    let s (x : RecentEntry) (rolling count : Nat) : State := { hearing held 9 with
      now := 200500
      intake := { (hearing held 9).intake with recent := [x] }
      candidates := [{ newCandidate (entry 9) false with rolling := rolling, still := count }] }
    (after (.entrySettle 0) (s e 5 0)).candidates.map Candidate.persistent = [true] ∧
      (after (.entrySettle 0) (s still 0 5)).candidates.map Candidate.stationary = [true] := by
  decide +kernel

theorem test_hypotheses_of_ColdPressureAndLeakRate :
    ((1 : BitVec 10) ≠ 0 ∧ (1022 : BitVec 10) ≠ 1023 ∧ (-50 : Int) ≤ 204 ∧ 80 ≤ 110) ∧ 0 < 1 ∧ (736 ≤ 780) := by
  decide +kernel

theorem test_hypotheses_of_EvaluationsOfASample :
    let l := live.limitsOf 0
    let h : Int := live.setting .pressureHyst
    (sample none).cold = none ∧ (sample (some 779)).cold = some 779 ∧ live.frozen = false ∧
    ({ live with eval := { live.eval with settleEnd := some 5 } } : State).frozen = true ∧
    ((639 : Int) < l.target - l.lowAlarm ∧ l.target - l.lowAlarm ≤ 640 ∧ (640 : Int) < l.target - l.lowWarn ∧
      l.target - l.lowWarn ≤ 720 ∧ (739 : Int) < l.target - l.lowWarn + h ∧ l.target - l.lowWarn + h ≤ 740) ∧
    (l.target + l.highWarn < 921 ∧ (900 : Int) ≤ max 0 (l.target + l.highWarn - h) ∧
      max 0 (l.target + l.highWarn - h) < 901) ∧
    (l.hotAlarm < 101 ∧ l.hotWarn < 100 ∧ l.hotWarn - live.setting .tempHyst < 85 ∧
      (80 : Int) ≤ l.hotWarn - live.setting .tempHyst) := by
  decide +kernel

/-- R111: a fault, a low battery and a failed measurement, and none of them. R114: the three results of a rate. -/
theorem test_hypotheses_of_sensor_and_leak_of_EvaluationsOfASample :
    let x := sample none
    let slow : Int := live.setting .leakLimits
    let rapid : Int := live.settingHigh .leakLimits
    ({ x with fault := true } : Sample).fault = true ∧ ({ x with battery := true } : Sample).battery = true ∧
      ({ x with code := 0 } : Sample).code = 0 ∧ (x.fault = false ∧ x.battery = false ∧ x.code ≠ 0) ∧
      rapid ≤ 200 ∧ (199 < rapid ∧ slow ≤ 199) ∧ (20 < rapid ∧ slow ≤ 20) ∧ (19 < rapid ∧ 19 < slow) := by
  decide +kernel

/-- R112, R113: 1LO is in no twin pair; 2LO and 2LI are one, and their cold pressures differ by 100, 61, 60, 41 and 40. -/
theorem test_hypotheses_of_a_pair_of_EvaluationsOfASample :
    let s (a b : Nat) := paired a b
    (∀ c : Coil, axleKind live.layout (coilAxle c) = .twin → (0 : Pos) ≠ outerPos c ∧ (0 : Pos) ≠ innerPos c) ∧
    (axleKind (s 800 700).layout (coilAxle 2) = .twin ∧ (4 : Pos) = outerPos 2 ∧ (5 : Pos) = innerPos 2) ∧
    (((s 800 700).posAt 4).state = .bound ∧ ((s 800 700).posAt 5).state = .bound ∧
      ((s 800 700).posAt 4).cold = some 800 ∧ ((s 800 700).posAt 5).cold = some 700 ∧
      (s 800 700).lifted 4 = false ∧ (s 800 700).frozen = false) ∧
    ((standing (s 800 700) 5 .suspect).posAt 5).state ≠ .bound ∧
    (let l : Int := live.setting .mismatchLimit
     let h : Int := live.setting .pressureHyst
     l < 61 ∧ (60 : Int) ≤ l ∧ max 0 (l - h) < 41 ∧ (40 : Int) ≤ max 0 (l - h)) := by
  decide +kernel

theorem test_hypotheses_of_AlertRecordMoves :
    AlertRec.reset.state = .clear ∧ EvalResult.raising .warn = true ∧ EvalResult.raising .band = false ∧
    (∃ r : AlertRec, r.state = .pending ∧ 3 ≤ r.pendingCount + 1) ∧ (∃ r : AlertRec, r.state = .pending ∧ r.pendingCount + 1 < 3) ∧
    (∃ r : AlertRec, r.state = .active ∧ r.level = .warn) ∧ (∃ r : AlertRec, r.state = .active ∧ r.level = .alarm) ∧
    (∃ r : AlertRec, r.state = .clearing ∧ 2 ≤ r.clearCount + 1) ∧ ∃ r : AlertRec, r.state = .clearing ∧ r.clearCount + 1 < 3 :=
  ⟨rfl, rfl, rfl, ⟨{ AlertRec.reset with state := .pending, pendingCount := 2 }, by decide⟩,
    ⟨{ AlertRec.reset with state := .pending, pendingCount := 1 }, by decide⟩, ⟨{ AlertRec.reset with state := .active }, by decide⟩,
    ⟨{ AlertRec.reset with state := .active, level := .alarm }, by decide⟩,
    ⟨{ AlertRec.reset with state := .clearing, clearCount := 1 }, by decide⟩,
    ⟨{ AlertRec.reset with state := .clearing, clearCount := 1 }, by decide⟩⟩

/-- R115: the LEAK record before an ALERT telegram. -/
theorem test_hypotheses_of_an_alert_telegram_of_AlertRecordMoves :
    AlertRec.reset.state = .clear ∧ ({ AlertRec.reset with state := .pending } : AlertRec).state = .pending ∧
    (({ AlertRec.reset with state := .active } : AlertRec).state = .active ∧
      ({ AlertRec.reset with state := .active } : AlertRec).level = .warn) ∧
    (({ AlertRec.reset with state := .clearing, level := .alarm } : AlertRec).state = .clearing ∧
      ({ AlertRec.reset with state := .clearing, level := .alarm } : AlertRec).level = .alarm) := by
  decide

/-- R118 to R121: a raise, an escalation, a clearing and a move without a notice in RUN with the ring ready, and the states in
which a notice is parked. -/
theorem test_hypotheses_of_an_evaluation_of_AlertRecordMoves :
    let p := live.setting .persistCount
    let c := live.setting .clearCount
    (({ AlertRec.reset with state := .pending, pendingCount := 2 } : AlertRec).move .alarm p c).2 = .raised ∧
    (({ AlertRec.reset with state := .active } : AlertRec).move .alarm p c).2 = .escalated ∧
    (({ AlertRec.reset with state := .clearing, clearCount := 1 } : AlertRec).move .clear p c).2 = .cleared ∧
    (AlertRec.reset.move .warn p c).2 = .none ∧
    (live.control.op = .run ∧ live.control.refHup = true ∧
      (∀ i : Fin 4, pendingWrite live.path.queue (0x2000 + 16 * live.notices.write.toNat + 4 * i.val) = none)) ∧
    (boot .loading true).control.op = .loading ∧ (boot .watch false).control.op = .watch ∧
    (boot .deepWatch false).control.op = .deepWatch := by
  decide +kernel

/-- R107: a sample of a BOUND position without a deadline, and of a SUSPECT one that is SILENT; an ALERT telegram. -/
theorem test_hypotheses_of_a_sample_of_AlertRecordMoves :
    let s := hearing held 7
    let u := s.modPos 0 (fun r =>
      { r with state := .suspect, silent := true, alerts := r.alerts.set .silent { AlertRec.reset with state := .active } })
    (s.intake.recent = entry 7 :: [] ∧ (entry 7).firstArrival + 120 ≤ s.now + 0 ∧ s.holder (entry 7).payload.id = some 0 ∧
      (s.posAt 0).state = .bound ∧ lateRepeat (s.posAt 0) (entry 7) (s.now + 0) = false ∧ (s.posAt 0).silent = false ∧
      (s.posAt 0).deadline = none ∧ (entry 7).payload.kind ≠ .triggered) ∧
    (u.intake.recent = entry 7 :: [] ∧ u.holder (entry 7).payload.id = some 0 ∧ (u.posAt 0).state = .suspect ∧
      lateRepeat (u.posAt 0) (entry 7) (u.now + 0) = false ∧ (u.posAt 0).silent = true ∧
      (u.alertAt 0 .silent).state = .active) := by
  decide +kernel

theorem test_hypotheses_of_FireStartOpensARecord :
    requesting.trigger.queue.find? (requesting.elapse 0).eligible = some request ∧ requesting.trigger.nextCode = some 1 ∧
    request.attempts = 0 ∧ (0 : Pos) ∈ servedBy requesting.layout request.coil ∧ (requesting.posAt 0).state = .unlearned := by
  decide +kernel

theorem test_hypotheses_of_FiresKeepTheirConditions :
    requesting.eligible request = true ∧ (∀ r ∈ live.trigger.queue, (live.elapse 0).eligible r = false) ∧
    live.trigger.nextCode = some 1 ∧ live.trigger.records.length ≤ 4 := by
  decide +kernel

theorem test_hypotheses_of_CoilsAndRecordsRunThroughTheirPeriods :
    let s := live.setCoil 0 (.firing 0 3)
    let u := live.setCoil 0 (.recovering 260)
    (s.trigger.coils.get 0 = .firing 0 3 ∧ 0 + 10 ≤ s.now + 10) ∧ (u.trigger.coils.get 0 = .recovering 260 ∧ 260 ≤ u.now + 260) := by
  decide +kernel

theorem test_hypotheses_of_ClassificationRetries :
    let r := { record 9 1 with responses := [] }
    let s := closing live r
    let f := { record 9 3 with responses := [] }
    let u := closing held f
    s.control.op = .run ∧ s.available r.coil = true ∧ closesBy s 0 r ∧
      fullAssignment s.layout (s.setting .twinMargin) r = none ∧ r.attempts < s.setting .retryLimit ∧
      (∀ q ∈ s.trigger.queue, q.coil ≠ r.coil) ∧
    (bindingsOk u ∧ closesBy u 0 f ∧ fullAssignment u.layout (u.setting .twinMargin) f = none ∧
      u.setting .retryLimit ≤ f.attempts ∧ 0 ∈ assignedSlots u.layout f) := by
  simp only [closesBy, recordsOk, bindingsOk]
  decide +kernel

/-- R73: a final classification of the TWIN axle with one answer, whose slot holds the responder, beside a LOCATING slot. -/
theorem test_hypotheses_of_a_partial_answer_of_ClassificationRetries :
    let r := twinRecord [{ id := 9, lf := 9 }] 3
    let s := closing (standing (holding held 5 .bound 9) 4 .locating) r
    bindingsOk s ∧ closesBy s 0 r ∧ fullAssignment s.layout (s.setting .twinMargin) r = none ∧
      s.setting .retryLimit ≤ r.attempts ∧ answersAlone s r 5 ∧ ¬answersAlone s r 4 ∧ 4 ∈ assignedSlots s.layout r ∧
      (s.posAt 4).state = .locating ∧ ∀ q ∈ assignedSlots s.layout r, (s.posAt q).state ≠ .detached := by
  simp only [closesBy, recordsOk, bindingsOk, answersAlone]
  decide +kernel

/-- R73, R80: beside a DETACHED slot, with a position that waits on a claim of the responder. -/
theorem test_hypotheses_of_a_final_failure_of_ClassificationRetries :
    let r := twinRecord [{ id := 9, lf := 9 }] 3
    let u := closing (seated (fun p x => match p.val with
      | 0 => { x with state := .bound, id := some 7, claim := some 9 }
      | 4 => { x with state := .detached, id := some 10 }
      | 5 => { x with state := .bound, id := some 9 }
      | _ => x)) r
    waitsOn u r.coil 0 ∧ bindingsOk u ∧ closesBy u 0 r ∧ ¬answersAlone u r 4 ∧ (u.posAt 4).state = .detached ∧
      0 ∉ assignedSlots u.layout r := by
  refine ⟨⟨9, by decide +kernel, by decide +kernel⟩, ?_⟩
  simp only [closesBy, recordsOk, bindingsOk, answersAlone]
  decide +kernel

/-- R79: the slot holds no ID. -/
theorem test_hypotheses_of_ClassificationBindsAnUnheldSensor :
    let r := record 9 1
    let s := closing live r
    singleAnswer s 0 r { id := 9, lf := 9 } ∧ s.holder 9 = none ∧ (s.posAt (outerPos r.coil)).id = none := by
  simp only [singleAnswer, closesBy, recordsOk]
  decide +kernel

/-- R79, R80: the slot holds another ID, which a claim names. -/
theorem test_hypotheses_of_a_replacement_of_ClassificationBindsAnUnheldSensor :
    let r := record 9 1
    let u := closing (claiming held 8 7) r
    bindingsOk u ∧ singleAnswer u 0 r { id := 9, lf := 9 } ∧ u.holder 9 = none ∧
      (u.posAt (outerPos r.coil)).id = some 7 ∧ (u.posAt 8).claim = some 7 := by
  simp only [singleAnswer, closesBy, recordsOk, bindingsOk]
  decide +kernel

/-- R71, R79: two answers of a TWIN axle. -/
theorem test_hypotheses_of_a_twin_of_ClassificationBindsAnUnheldSensor :
    let w := twinRecord [{ id := 10, lf := 3 }, { id := 9, lf := 9 }] 1
    let v := closing held w
    twinAnswer v 0 w { id := 9, lf := 9 } { id := 10, lf := 3 } ∧ v.holder 9 = none ∧ v.holder 10 = none ∧
      (v.posAt (innerPos w.coil)).id = none ∧ (v.posAt (outerPos w.coil)).id = none := by
  simp only [twinAnswer, closesBy, recordsOk]
  decide +kernel

/-- R74, R80: the slot holds the responder, and a claim names it. -/
theorem test_hypotheses_of_ClassificationConfirms :
    let r := record 7 1
    let s := closing (claiming held 8 7) r
    singleAnswer s 0 r { id := 7, lf := 9 } ∧ (s.posAt (outerPos r.coil)).id = some 7 ∧ (s.posAt 8).claim = some 7 := by
  simp only [singleAnswer, closesBy, recordsOk]
  decide +kernel

/-- R75: the slots of a TWIN axle hold the two responders the wrong way round. -/
theorem test_hypotheses_of_a_twin_of_ClassificationConfirms :
    let w := twinRecord [{ id := 10, lf := 3 }, { id := 9, lf := 9 }] 1
    let v := closing (holding (holding live 5 .bound 10) 4 .suspect 9) w
    bindingsOk v ∧ twinAnswer v 0 w { id := 9, lf := 9 } { id := 10, lf := 3 } ∧
      (v.posAt (innerPos w.coil)).id = some 10 ∧ (v.posAt (outerPos w.coil)).id = some 9 ∧
      ∀ p, p ≠ innerPos w.coil → p ≠ outerPos w.coil → (v.posAt p).claim ≠ some 9 ∧ (v.posAt p).claim ≠ some 10 := by
  simp only [twinAnswer, closesBy, recordsOk, bindingsOk]
  decide +kernel

/-- R76: the holder's claim names the slot's ID. -/
theorem test_hypotheses_of_an_exchange_of_ClassificationConfirms :
    let r := record 8 1
    let x := closing (claiming held 8 7) r
    bindingsOk x ∧ singleAnswer x 0 r { id := 8, lf := 9 } ∧ (x.posAt (outerPos r.coil)).id = some 7 ∧
      (x.posAt 8).id = some 8 ∧ (x.posAt 8).claim = some 7 ∧
      ∀ p, p ≠ outerPos r.coil → p ≠ 8 → (x.posAt p).claim ≠ some 7 := by
  simp only [singleAnswer, closesBy, recordsOk, bindingsOk]
  decide +kernel

/-- R77: the slot holds no ID. -/
theorem test_hypotheses_of_a_move_of_ClassificationConfirms :
    let r := record 8 1
    let m := closing (holding live 8 .bound 8) r
    bindingsOk m ∧ singleAnswer m 0 r { id := 8, lf := 9 } ∧ (m.posAt (outerPos r.coil)).id = none ∧
      (m.posAt 8).id = some 8 := by
  simp only [singleAnswer, closesBy, recordsOk, bindingsOk]
  decide +kernel

/-- R78: the holder's coil is available. -/
theorem test_hypotheses_of_a_claim_of_ClassificationConfirms :
    let r := record 8 1
    let a := closing (coupled held) r
    bindingsOk a ∧ singleAnswer a 0 r { id := 8, lf := 9 } ∧ a.control.op = .run ∧
      (a.posAt (outerPos r.coil)).id = some 7 ∧ (a.posAt 8).id = some 8 ∧ (∀ p, (a.posAt p).claim ≠ some 7) ∧
      sideCoil 8 = some 4 ∧ a.available 4 = true ∧ ∀ z ∈ a.trigger.queue, z.coil ≠ 4 := by
  simp only [singleAnswer, closesBy, recordsOk, bindingsOk]
  decide +kernel

/-- R78: the holder's coil is not available, or the holder is a spare. -/
theorem test_hypotheses_of_a_conflict_of_ClassificationConfirms :
    let r := record 8 1
    let c := closing held r
    bindingsOk c ∧ singleAnswer c 0 r { id := 8, lf := 9 } ∧ c.available 4 = false ∧ sideCoil 24 = none := by
  simp only [singleAnswer, closesBy, recordsOk, bindingsOk]
  decide +kernel

theorem test_hypotheses_of_SilenceDeadlineExpires :
    let s := held.modPos 0 (fun r => { r with deadline := some 0, interval := some 16 })
    let u := live.modPos 0 (fun r => { r with deadline := some 0, interval := some 16 })
    ((s.elapse 3000).deadlineReached (s.posAt 0) = true ∧ (s.posAt 0).state = .bound ∧
      (s.alertAt 0 .silent).state = .clear) ∧
    ((u.elapse 3000).deadlineReached (u.posAt 0) = true ∧ (u.posAt 0).state ≠ .bound) := by
  decide +kernel

/-- R98, R183: a PERSISTENT candidate on the home lane of 1LO, whose coil is available, with the ring ready; no candidate, and
a spare. -/
theorem test_hypotheses_of_a_lookup_of_SilenceDeadlineExpires :
    let e := { newCandidate (entry 9) false with persistent := true }
    let s := { held.modPos 0 (fun r => { r with deadline := some 0, interval := some 16, homeLane := some .a }) with
      candidates := [e] }
    ((s.elapse 3000).deadlineReached (s.posAt 0) = true ∧ (s.posAt 0).state = .bound ∧ sideCoil 0 = some 0 ∧
      s.control.op = .run ∧ s.available 0 = true ∧ e.persistent = true ∧ (s.posAt 0).homeLane = some e.strongest) ∧
    (s.control.refHup = true ∧
      ∀ i : Fin 4, pendingWrite s.path.queue (0x2000 + 16 * s.notices.write.toNat + 4 * i.val) = none) ∧
    held.candidates = [] ∧ sideCoil 24 = none ∧ sideCoil 8 = some 4 ∧ s.available 4 = false := by
  decide +kernel

theorem test_hypotheses_of_TimersOfTheEvaluationUnit :
    let s := { live with eval := { live.eval with
      settleEnd := some 5, escalation := .running 5, lamp := .flash true 5 } }
    s.eval.settleEnd = some 5 ∧ s.eval.escalation = .running 5 ∧ s.eval.lamp = .flash true 5 ∧ 5 ≤ s.now + 5 := by
  decide +kernel

theorem test_hypotheses_of_SweepTimerExpires :
    let s := { live with sweep := { live.sweep with timer := some 5 } }
    let u := { s with sweep := { s.sweep with publication := some (publication 0 []) } }
    (s.sweep.timer = some 5 ∧ 5 ≤ s.now + 5 ∧ s.sweep.publication = none) ∧
    (u.sweep.timer = some 5 ∧ u.sweep.publication = some (publication 0 [])) := by
  decide +kernel

theorem test_hypotheses_of_ListenCycle :
    let s := { boot .watch false with control := { (boot .watch false).control with
      nextWindow := some 5, windowEnd := some 5, deepEnd := some 5 } }
    s.control.op = .watch ∧ s.control.nextWindow = some 5 ∧ s.control.windowEnd = some 5 ∧ s.control.deepEnd = some 5 ∧
      5 ≤ s.now + 5 ∧ s.masked .a = false ∧ (s.intake.lanes.get .a).state = .off := by
  decide +kernel

theorem test_hypotheses_of_PositionGroupIsCaptured :
    captureReady (publishing 25 []) (publication 25 []) (cellOffset 0 25) ∧
      (publication 25 []).groups = (25 : Pos).val ∧
    captureReady (publishing 0 []) (publication 0 []) (cellOffset 0 0) ∧ (publication 0 []).groups = (0 : Pos).val ∧
    captureReady (publishing 26 []) (publication 26 []) ((publication 26 []).page.base + 0x380) ∧
    captureReady (publishing 27 []) (publication 27 []) ((publication 27 []).page.base + 0x704) ∧
    captureReady (publishing 28 []) (publication 28 []) (publication 28 []).page.base := by
  simp only [captureReady]
  decide +kernel

theorem test_hypotheses_of_KeptWriteIsOfferedAgain :
    let k : KeptWrite := { offset := 0x1000, data := 1 }
    let s := publishing 1 [k]
    let u := { s with path := { s.path with
      queue := (List.range 40).map (fun i => { access := .read, offset := 4 * i, origin := .load }) } }
    (s.control.refHup = true ∧ s.control.op ≠ .reset ∧ s.sweep.publication = some (publication 1 [k]) ∧
      (publication 1 [k]).kept = k :: [] ∧ pendingWrite s.path.queue k.offset = none ∧ s.path.queue.length ≤ 39) ∧
    (u.sweep.publication = some (publication 1 [k]) ∧ pendingWrite u.path.queue k.offset = none ∧ 40 ≤ u.path.queue.length) := by
  decide +kernel

theorem test_hypotheses_of_HeadIsIssuedInAGap :
    let s := { live with path := { live.path with queue := [entryAt 0x4000 .publish] } }
    let c := Instr.hostRead 0 0x4000 15 .single
    let x := HostTxn.read 0x4000 15 1
    let y := BusTxn.read 0x4000 (some 0x4000) 15 1
    let b := withBus live (entryAt 0x4000 .publish)
    let o := { s with path := { s.path with overdue := true } }
    let h := { b with path := { b.path with held := some y } }
    (s.path.queue = entryAt 0x4000 .publish :: [] ∧ s.path.bus = none ∧ s.path.held = none ∧ s.path.queue ≠ []) ∧
    (presented c b = some (0, x) ∧ b.path.held = none ∧ b.control.refHup = true ∧ b.control.op ≠ .reset ∧
      b.resolve x = some y ∧ b.path.bus.isSome = true) ∧
    (presented c o = some (0, x) ∧ o.path.held = none ∧ o.control.refHup = true ∧ o.control.op ≠ .reset ∧
      o.resolve x = some y ∧ o.path.bus = none ∧ o.path.overdue = true ∧ o.path.queue = entryAt 0x4000 .publish :: []) ∧
    (presented (.hostRead 0 0x800 15 .single) b = some (0, .read 0x800 15 1) ∧ b.resolve (.read 0x800 15 1) = none) ∧
    (h.path.bus = some { entry := entryAt 0x4000 .publish, addr := 0x4000, reported := true } ∧ h.path.held = some y ∧
      h.path.waiting = [] ∧ h.path.owed = false) := by
  decide +kernel

/-- R172, R174: an overdue head stood behind the access on the bus when the host transaction started. The access was abandoned,
or its completion is reported, and the head still stands behind it. -/
theorem test_hypotheses_of_an_owed_head_of_HeadIsIssuedInAGap :
    let y := BusTxn.write .passed 0x20000 0 [whole 1]
    let b (origin : Origin) (reported : Bool) : Issued :=
      { entry := entryAt 0x4000 origin, addr := 0x4000, reported := reported }
    let s (b : Issued) (held : Option BusTxn) : State := { live with path := { live.path with
      queue := [entryAt 0x2000 .notice], bus := some b, held := held, owed := true, overdue := true } }
    ((s (b .trend false) (some y)).path.held = some y ∧ (b .trend false).reported = false ∧
      (s (b .trend false) (some y)).control.refHup = true ∧ (s (b .trend false) (some y)).control.op ≠ .reset ∧
      (s (b .trend false) (some y)).path.owed = true ∧ (s (b .trend false) (some y)).path.overdue = true ∧
      (s (b .trend false) (some y)).path.queue = entryAt 0x2000 .notice :: []) ∧
    (b .notice true).entry.origin = .notice ∧
    ((after (.partAccessComplete 0) (s (b .publish true) none)).path.queue = entryAt 0x2000 .notice :: [] ∧
      (after (.partAccessComplete 0) (s (b .publish true) none)).path.overdue = true) := by
  decide +kernel

theorem test_hypotheses_of_PartWriteReachesMemory :
    let s := withBus live (entryAt 0x2000 .notice)
    s.path.bus = some { entry := entryAt 0x2000 .notice, addr := 0x2000, reported := true } ∧
      (entryAt 0x2000 .notice).access = .write 0x01020304 ∧ s.path.held = none ∧ Memory.wf s.mem = true := by
  decide +kernel

theorem test_hypotheses_of_NoticeCompletes :
    let s := { withBus live (entryAt 0x200C .notice) with notices := { live.notices with inRing := [notice] } }
    s.path.bus = some { entry := entryAt 0x200C .notice, addr := 0x200C, reported := true } ∧
      entryAt 0x200C .notice = { access := .write 0x01020304, offset := 0x2000 + s.notices.completed.toNat * 16 + 12,
                                 origin := .notice } ∧
      s.path.held = none ∧ s.notices.inRing = notice :: [] := by
  decide +kernel

theorem test_hypotheses_of_LastWriteFlipsThePage :
    let b : Issued := { entry := entryAt 0x1804 .publish, addr := 0x1804, reported := true }
    let s := withBus (publishing 29 []) (entryAt 0x1804 .publish)
    let h (n : Nat) : State := { s with sweep := { s.sweep with hold := .held, deferredCount := n } }
    (flipDue s b 0x01020304 (publication 29 []) ∧ s.sweep.hold ≠ .held) ∧
    (flipDue (h 1) b 0x01020304 (publication 29 []) ∧ (h 1).sweep.hold = .held ∧ (h 1).sweep.deferredCount < 2) ∧
    (flipDue (h 2) b 0x01020304 (publication 29 []) ∧ (h 2).sweep.hold = .held ∧ 2 ≤ (h 2).sweep.deferredCount ∧
      (h 2).notices.write + 1 ≠ (h 2).readIndex) := by
  simp only [flipDue]
  decide +kernel

/-- R146: the second word of a trend read returns, with a valid old cell and without one. -/
theorem test_hypotheses_of_a_trend_result_of_LastWriteFlipsThePage :
    let x : TrendRead := { position := 0, column := 3, word0 := some 0x004002BC, word1 := none }
    let e : QEntry := { access := .read, offset := cellOffset 3 0 + 4, origin := .trend }
    let s := withBus (held.modPos 0 (fun r => { r with sample := some (sample (some 690)) })) e
    let t := { s with sweep := { s.sweep with trend := [x], count := 12 } }
    let w1 := readWord t.mem e.offset
    t.path.bus = some { entry := e, addr := e.offset, reported := true } ∧ t.path.held = none ∧
      t.sweep.trend = [] ++ x :: [] ∧ x.word0 = some 0x004002BC ∧ x.word1 = none ∧
      bits 0x004002BC 22 1 = 1 ∧ bits w1 0 8 = (t.posAt x.position).epoch.toNat ∧
      (t.posAt x.position).state = .bound ∧ (t.sweep.count - BitVec.ofNat 16 (bits w1 16 16)).toNat ≠ 0 ∧
      (t.posAt x.position).cold = some 690 ∧ (held.posAt 0).cold = none := by
  decide +kernel

theorem test_hypotheses_of_LoadResultsAreDiscardedOrTaken :
    let e : QEntry := { access := .read, offset := SettingWord.assign0.offset, origin := .load }
    let k : QEntry := { access := .read, offset := SettingWord.patm.offset, origin := .load }
    let l := boot .loading true
    let s := withBus (l.markLoaded .assign0) e
    let u := withBus l e
    let f := withBus { l with control := { l.control with
      loaded := (Vector.replicate 35 true).set SettingWord.patm.num false (by decide) } } k
    (s.path.bus = some { entry := e, addr := 4, reported := true } ∧ s.path.held = none ∧ s.isLoaded .assign0 = true) ∧
    (u.path.bus = some { entry := e, addr := 4, reported := true } ∧ u.path.held = none ∧ u.control.op = .loading ∧
      u.isLoaded .assign0 = false ∧ allowedWord .assign0 (readWord u.mem 4) (u.setting .historyDepth) ∧
      SettingWord.patm ≠ .assign0 ∧ u.isLoaded .patm = false) ∧
    (f.path.bus = some { entry := k, addr := 0x50, reported := true } ∧ f.control.op = .loading ∧
      f.isLoaded .patm = false ∧ ¬allowedWord .patm (readWord f.mem 0x50) (f.setting .historyDepth) ∧
      ∀ x ∈ settingWords, x ≠ .patm → f.isLoaded x = true) := by
  simp only [allowedWord]
  decide +kernel

theorem test_hypotheses_of_HostReadsReturnTheirWords :
    memoryFree live ∧ ReadShape.aligned .burst (0x4000 : BitVec 24).toNat = true ∧
    live.windowOffset (0x20000 : BitVec 24).toNat = none ∧ live.windowOffset (0x4000 : BitVec 24).toNat = some 0x4000 ∧
    live.readTarget 0x4000 = some 0x4000 ∧ live.windowOffset (0x800 : BitVec 24).toNat = some 0x800 ∧
    live.readTarget 0x800 = none := by
  simp only [memoryFree]
  decide +kernel

theorem test_hypotheses_of_ViewsFollowTheTranslationState :
    let s := { live with sweep := { live.sweep with head := 5, written := 64, published := true } }
    (live.setting .historyDepth ≤ 64 ∧ 64 < 96 ∧ live.sweep.written ≤ live.setting .viewLag + (live.setting .historyDepth - 1 - 0)) ∧
    (63 < s.setting .historyDepth ∧ s.setting .viewLag + (s.setting .historyDepth - 1 - 63) < s.sweep.written) ∧
    live.sweep.published = false ∧ s.sweep.published = true ∧ s.sweep.front = .a ∧
    ({ s with sweep := { s.sweep with front := .b } } : State).sweep.front = .b := by
  decide +kernel

theorem test_hypotheses_of_PassedWriteReachesMemory :
    memoryFree live ∧ HostData.aligned (.single (whole 1)) (0x20000 : BitVec 24).toNat = true ∧
    live.windowOffset (0x20000 : BitVec 24).toNat = none ∧ live.windowOffset (0x400 : BitVec 24).toNat = some 0x400 ∧
    regionOf 0x400 = .scratch ∧ Memory.wf live.mem = true := by
  simp only [memoryFree]
  decide +kernel

theorem test_hypotheses_of_SuppressedWriteNeverChangesMemory :
    memoryFree live ∧ HostData.aligned (.burst (whole 1) (whole 2) (whole 3) (whole 4)) (0xFFF0 : BitVec 24).toNat = true ∧
    live.windowOffset (0xFFF0 : BitVec 24).toNat = some 0xFFF0 ∧ (regionOf 0xFFF0).writeClass = .suppressed ∧
    (regionOf 0x800).writeClass = .suppressed ∧ live.path.refused ≤ 65535 ∧ (whole 4).enables ≠ 0 := by
  simp only [memoryFree]
  decide +kernel

theorem test_hypotheses_of_SettingIsTaken :
    let part : HostWord := { enables := 1, data := 63 }
    takesSetting live .viewLag part 63 ∧ SettingWord.viewLag ∈ plainWords ∧
    takesSetting live .laneMask (whole 5) 5 ∧ (5 : Word).getLsbD (laneNum .a) = true ∧
      (5 : Word).getLsbD (laneNum .b) = false ∧ (live.intake.lanes.get .b).state = .off ∧
    takesSetting live .driftLimit (whole 1) 1 ∧
    takesSetting live .sweepPeriod (whole 10) 10 ∧ bits 10 0 16 = live.setting .sweepPeriod ∧
    takesSetting live .historyDepth (whole 8) 8 ∧ bits 8 0 16 ≠ live.setting .historyDepth ∧
      (8 ≤ ({ live with snoop := { live.snoop with settings := live.snoop.settings.set 33 9 } } : State).setting .viewLag) := by
  simp only [takesSetting, takesCommands, memoryFree, mergedInto, allowedWord]
  decide +kernel

/-- R90, R101: a range that changes an interval and one that does not, and a multiple that brings a deadline to now. -/
theorem test_hypotheses_of_the_intervals_of_SettingIsTaken :
    let s := (held.modPos 0 (fun r => { r with interval := some 1440, deadline := some 0 })).modPos 8
      (fun r => { r with interval := some 160 })
    let v : Word := 0x003C0008
    takesSetting s .rollingRange (whole v) v ∧ rangeWordOf s 0 = .rollingRange ∧ rangeWordOf s 8 = .rollingRange ∧
      clampedBy v 1440 ≠ 1440 ∧ clampedBy v 160 = 160 ∧ (s.posAt 0).interval = some 1440 ∧
      (s.posAt 8).interval = some 160 ∧ (s.posAt 3).interval = none ∧
    takesSetting s .silenceMultiple (whole 2) 2 ∧ 16 * 0 + 1000 * 2 * 1440 ≤ 16 * (s.now + 180000) := by
  simp only [takesSetting, takesCommands, memoryFree, mergedInto, allowedWord]
  decide +kernel

/-- R130: the timer is disarmed, and it is armed with an unacknowledged ALARM standing. -/
theorem test_hypotheses_of_the_escalation_of_SettingIsTaken :
    lampOk live ∧ lampOk alarmed ∧ takesSetting live .ackLimit (whole 0) 0 ∧
      takesSetting alarmed .escAction (whole 1) 1 ∧ alarmed.setting .ackLimit ≠ 0 ∧
      (alarmed.alertAt 0 .low).unackedAlarm = true := by
  refine ⟨lampOk_live, lampOk_alarmed, ?_⟩
  simp only [takesSetting, takesCommands, memoryFree, mergedInto, allowedWord]
  decide +kernel

/-- R156: a whole word in LOADING that sets the last flag, and one that does not. -/
theorem test_hypotheses_of_the_load_of_SettingIsTaken :
    let l := boot .loading true
    let f := { l with control := { l.control with
      loaded := (Vector.replicate 35 true).set SettingWord.viewLag.num false (by decide) } }
    (f.control.op = .loading ∧ memoryFree f ∧ mergedInto (f.copy .viewLag) (whole 63) 63 ∧
      allowedWord .viewLag 63 (f.setting .historyDepth) ∧ ∀ x ∈ settingWords, x ≠ .viewLag → f.isLoaded x = true) ∧
    (l.control.op = .loading ∧ memoryFree l ∧ l.isLoaded .patm = false) := by
  simp only [memoryFree, mergedInto, allowedWord]
  decide +kernel

theorem test_hypotheses_of_SettingIsRefused :
    let s := boot .loading true
    let part : HostWord := { enables := 3, data := 64 }
    (takesLiveWords s ∧ mergedInto (s.copy .viewLag) part 64 ∧ ¬allowedWord .viewLag 64 (s.setting .historyDepth) ∧
      SettingWord.patm ≠ .viewLag ∧ s.isLoaded .patm = false ∧ s.control.parked.length < 16) ∧
    (takesLiveWords live ∧ ringReady live ∧ mergedInto (live.copy .patm) (whole 79) 79 ∧
      ¬allowedWord .patm 79 (live.setting .historyDepth)) ∧
    (16 ≤ ({ s with control := { s.control with parked := List.replicate 16 notice } } : State).control.parked.length) ∧
    (mergedInto (live.liveCopy .readIndex) (whole 128) 128 ∧ 127 < bits 128 0 16) ∧
    (mergedInto (live.liveCopy .loaderIndex) (whole 16) 16 ∧ 15 < bits 16 0 16) := by
  simp only [takesLiveWords, memoryFree, mergedInto, allowedWord, ringReady]
  decide +kernel

/-- R183: a notice meets a full ring, a full queue, or a free slot. -/
theorem test_ring_of_SettingIsRefused :
    let full := { live with notices := { live.notices with write := 127 } }
    let busy := { live with path := { live.path with
      queue := (List.range 45).map (fun i => { access := .read, offset := 4 * i, origin := .load }) } }
    (ringReady full ∧ full.notices.write + 1 = full.readIndex) ∧ (ringReady busy ∧ 44 < busy.path.queue.length) ∧
      (live.notices.write + 1 ≠ live.readIndex ∧ live.path.queue.length ≤ 44) := by
  simp only [ringReady]
  decide +kernel

theorem test_hypotheses_of_WritesOutOfLoadingAndRunAreNotTaken :
    let s := boot .deepWatch false
    (s.control.op = .reset ∨ s.control.op = .watch ∨ s.control.op = .deepWatch) ∧ memoryFree s ∧
      (0x3FC : BitVec 10).toNat % 4 = 0 := by
  simp only [memoryFree]
  decide +kernel

theorem test_hypotheses_of_AxleLayoutIsTaken :
    takesCommands held ∧ layoutOk 0x00000092 = true ∧ bindingsOk held ∧
    (inUse 0x92 24 = false ∧ inUse 0x92 1 = true ∧ inUse held.layout 1 = false) ∧
    (inUse 0x92 4 = true ∧ inUse held.layout 4 = true ∧ trailerPos held.layout 4 ≠ trailerPos 0x92 4) ∧
    (inUse held.layout 0 = true ∧ trailerPos held.layout 0 = trailerPos 0x92 0) ∧
    (layoutOk 0x00000911 = true ∧ inUse 0x911 4 = true ∧ trailerPos held.layout 4 = trailerPos 0x911 4 ∧
      (axleOf 4).any (axleChanges held.layout 0x911) = true ∧
      (axleOf 4).any (fun a => axleKind held.layout a == .twin && axleKind 0x911 a == .single) = true) := by
  simp only [takesCommands, memoryFree, bindingsOk]
  decide +kernel

/-- R4, R86, R21: a request and a record of a changed coil, a LOCATING position of its axle, a recheck flag there, and a claim
on the ID of a position that leaves use with its own flag set. -/
theorem test_hypotheses_of_the_coils_of_AxleLayoutIsTaken :
    let s := (((held.modPos 4 (fun r => { r with state := .locating, recheck := true })).modPos 8
      (fun r => { r with recheck := true })).modPos 0 (fun r => { r with claim := some 8 }))
    let t := closing { s with trigger := { s.trigger with queue := [request, { request with coil := 2 }] } }
      (twinRecord [] 1)
    takesCommands t ∧ bindingsOk t ∧ layoutOk 0x11 = true ∧ axleChanges t.layout 0x11 (coilAxle 2) = true ∧
      axleChanges t.layout 0x11 (coilAxle 0) = false ∧ (t.posAt 4).state = .locating ∧
      t.trigger.queue.map Request.coil = [0, 2] ∧ t.trigger.records.map FireRec.coil = [2] ∧ inUse 0x11 8 = false ∧
      (t.posAt 8).recheck = true ∧ (t.posAt 8).id = (t.posAt 0).claim ∧
      (after (.axleLayout 0 (whole 0x11)) t).trigger.queue = [request, newRequest .recheck 2] ∧
      (after (.axleLayout 0 (whole 0x11)) t).trigger.records = [] ∧
      ((after (.axleLayout 0 (whole 0x11)) t).posAt 0).claim = none := by
  simp only [takesCommands, memoryFree, bindingsOk]
  decide +kernel

theorem test_hypotheses_of_VehicleStateIsTaken :
    let u := { live with snoop := { live.snoop with settings := live.snoop.settings.set 7 0x100 } }
    takesCommands live ∧ takesCommands u ∧ live.bodyRaised = false ∧ (0x100 : Word).getLsbD 8 = true ∧
      u.bodyRaised = true ∧ (0 : Word).getLsbD 8 = false ∧ u.setting .tipSettle ≠ 0 ∧
      ({ u with snoop := { u.snoop with settings := u.snoop.settings.set 27 0 } } : State).setting .tipSettle = 0 := by
  simp only [takesCommands, memoryFree]
  decide +kernel

/-- R90: the lifted mask names the liftable axle 1, whose position holds an E of 16 s; 3LO keeps its range, and 1RO has no E. -/
theorem test_hypotheses_of_a_lifted_axle_of_VehicleStateIsTaken :
    let s := lifting
    let t := after (.vehicleState 0 (whole 0x10000)) s
    takesCommands s ∧ t.lifted 0 ≠ s.lifted 0 ∧ (s.posAt 0).interval = some 256 ∧
      clampedBy (s.copy (rangeWordOf t 0)) 256 ≠ 256 ∧ t.lifted 8 = s.lifted 8 ∧ (s.posAt 8).interval = some 256 ∧
      clampedBy (s.copy (rangeWordOf t 8)) 256 = 256 ∧ (s.posAt 3).interval = none := by
  simp only [takesCommands, memoryFree, rangeWordOf, clampedBy]
  decide +kernel

theorem test_hypotheses_of_ReadIndexIsTaken :
    takesLiveWords live ∧ (whole 127).enables ≠ 0 ∧
    bits (mergeBytes (live.liveCopy .readIndex) (whole 127)) 0 16 ≤ 127 := by
  simp only [takesLiveWords, memoryFree]
  decide +kernel

theorem test_hypotheses_of_PageHoldIsTaken :
    let s := { live with sweep := { live.sweep with deferredFlip := true } }
    takesLiveWords s ∧ (whole 0).enables ≠ 0 ∧ mergeBytes (s.liveCopy .pageHold) (whole 1) ≠ 0 ∧
      mergeBytes (s.liveCopy .pageHold) (whole 0) = 0 ∧ s.sweep.deferredFlip = true ∧ s.sweep.publication = none ∧
      live.sweep.deferredFlip = false := by
  simp only [takesLiveWords, memoryFree]
  decide +kernel

theorem test_hypotheses_of_LimitLoaderGathersSets :
    let s := { live with snoop := { live.snoop with partialEntry := [780, 70, 150, 110, 80] } }
    let l (x : Int) : LimitSet :=
      { target := 780, lowWarn := 70, lowAlarm := 150, highWarn := 110, hotWarn := 80, hotAlarm := x, loaded := true }
    takesLiveWords live ∧ takesLiveWords s ∧ (whole 15).enables ≠ 0 ∧
      bits (mergeBytes (live.liveCopy .loaderIndex) (whole 15)) 0 16 ≤ 15 ∧ live.snoop.partialEntry.length < 5 ∧
      s.snoop.partialEntry = [780, 70, 150, 110, 80] ∧ ringReady s ∧
      signedLow (mergeBytes (s.liveCopy .loaderData) (whole 95)) = 95 ∧ limitsAllowed (l 95) ∧
      ¬limitsAllowed (l 80) ∧ limitsAllowed (l 204) ∧ ¬limitsAllowed (l 205) := by
  simp only [takesLiveWords, memoryFree, ringReady, limitsAllowed]
  decide +kernel

theorem test_hypotheses_of_BindPlacesTheId :
    let s := withArgument held 8
    takesCommands s ∧ validId (s.liveCopy .argument) = true ∧ (s.posAt 0).state ≠ .vacant ∧
      (s.posAt 0).id ≠ some (s.liveCopy .argument) ∧ s.holder (s.liveCopy .argument) = some 8 := by
  simp only [takesCommands, memoryFree]
  decide +kernel

theorem test_hypotheses_of_BindConfirmsOrIsRefused :
    let s := withArgument held 7
    takesCommands s ∧ validId (s.liveCopy .argument) = true ∧ (s.posAt 0).state ≠ .vacant ∧
      (s.posAt 0).id = some (s.liveCopy .argument) ∧ 25 < (26 : Byte).toNat ∧ (s.posAt 25).state = .vacant ∧
      (withArgument held 0xFFFFFFFF).liveCopy .argument = 0xFFFFFFFF := by
  simp only [takesCommands, memoryFree]
  decide +kernel

theorem test_hypotheses_of_UnbindDropsTheId :
    takesCommands held ∧ (held.posAt 0).state.holdsId = true ∧ (held.posAt 3).state = .unlearned ∧
    (held.posAt 25).state = .vacant ∧
    ((live.modPos 0 (fun r => { r with state := .locating })).posAt 0).state = .locating := by
  simp only [takesCommands, memoryFree]
  decide +kernel

theorem test_hypotheses_of_SwapExchangesTheIds :
    let s := withArgument held 3
    takesCommands s ∧ bits (s.liveCopy .argument) 0 8 = (3 : Pos).val ∧ (0 : Pos) ≠ 3 ∧ (s.posAt 0).state ≠ .vacant ∧
      (s.posAt 3).state ≠ .vacant ∧ (s.posAt 0).id.isSome = true ∧
      25 < bits ((withArgument held 26).liveCopy .argument) 0 8 ∧ (s.posAt 25).state = .vacant := by
  simp only [takesCommands, memoryFree]
  decide +kernel

theorem test_hypotheses_of_LocationCommandsQueueRequests :
    takesCommands held ∧ servingCoil held.layout 0 = some 0 ∧ held.available 0 = true ∧
    (∀ r ∈ held.trigger.queue, r.coil ≠ 0) ∧ 24 ≤ (24 : Pos).val ∧ servedBy held.layout 0 ≠ [] ∧
    held.servesState 0 BindState.holdsId = true ∧
    ∀ c, live.available c = true → live.servesState c BindState.holdsId = false := by
  simp only [takesCommands, memoryFree]
  decide +kernel

theorem test_hypotheses_of_AckAcknowledges :
    let s := withArgument held 127
    takesCommands s ∧ (s.liveCopy .argument).toNat < 128 ∧ (s.posAt 0).state ≠ .vacant ∧ (s.posAt 25).state = .vacant ∧
      128 ≤ ((withArgument held 128).liveCopy .argument).toNat ∧ 25 < (26 : Byte).toNat ∧ (26 : Byte) ≠ 0xFF := by
  simp only [takesCommands, memoryFree]
  decide +kernel

theorem test_hypotheses_of_ForgetKeepsOnlyClaimedCandidates :
    takesCommands live := by
  simp only [takesCommands, memoryFree]
  decide +kernel

theorem test_hypotheses_of_CommandsThatAreNotExecuted :
    takesCommands live ∧ codeNamesCommand (8 : Byte).toNat = false ∧ codeNamesCommand (0 : Byte).toNat = false ∧
    (3 : BitVec 4) ≠ 15 ∧ (3 : BitVec 4) ≠ 0 ∧ (7, Instr.forgetCandidates 0 0 0 0 3) ∈ commandWrites 0 8 0 0 0 3 ∧
    (boot .loading true).control.op = .loading ∧ memoryFree (boot .loading true) := by
  simp only [takesCommands, memoryFree]
  decide +kernel

/-- Each invariant holds in a state from which a step answers a next state. -/
theorem test_hypotheses_of_the_invariants :
    Memory.wf live.mem = true ∧ queueOk live.path.queue ∧ bindingsOk held ∧
      heldNotListed { held with candidates := [newCandidate (entry 9) false] } ∧ lampOk live ∧ escalationOk live ∧
      recordsOk live ∧ candidatesOk live ∧ listsOk live ∧ step live = .next (live.elapse 1) ∧
      step held = .next (held.elapse 1) := by
  refine ⟨rfl, ?_, ?_, ?_, lampOk_live, ?_, ?_, ?_, ?_, rfl, rfl⟩
  · unfold queueOk; decide +kernel
  · unfold bindingsOk; decide +kernel
  · unfold heldNotListed; decide +kernel
  · exact ⟨fun _ => Or.inr (fun p k => by cases k <;> revert p <;> decide +kernel), fun _ => rfl⟩
  · unfold recordsOk; decide +kernel
  · unfold candidatesOk; decide +kernel
  · unfold listsOk; decide +kernel

end Sys2Proof.Tests
end

