-- ==== Sys2Proof/Proofs/ForgetCandidates.lean ====
section
/-! FORGET CANDIDATES (R57). The three steps of a command taken in RUN (the write of the command word, the owner's
work, the command result) each have their frame lemmas; the obligation reads its clauses off their composition. -/

namespace Sys2Proof.Machine

/-! ### The command word stands in memory and in its copy (R175, R180) -/

@[simp] theorem commandWritten_positions (s : State) (w : Word) : (s.commandWritten w).positions = s.positions := rfl
@[simp] theorem commandWritten_candidates (s : State) (w : Word) : (s.commandWritten w).candidates = s.candidates := rfl
@[simp] theorem commandWritten_trigger (s : State) (w : Word) : (s.commandWritten w).trigger = s.trigger := rfl
@[simp] theorem commandWritten_eval (s : State) (w : Word) : (s.commandWritten w).eval = s.eval := rfl
@[simp] theorem commandWritten_path (s : State) (w : Word) : (s.commandWritten w).path = s.path := rfl
@[simp] theorem commandWritten_notices (s : State) (w : Word) : (s.commandWritten w).notices = s.notices := rfl
@[simp] theorem commandWritten_pending (s : State) (w : Word) : (s.commandWritten w).pending = s.pending := rfl
@[simp] theorem commandWritten_settings (s : State) (w : Word) :
    (s.commandWritten w).snoop.settings = s.snoop.settings := rfl
@[simp] theorem commandWritten_result (s : State) (w : Word) :
    (s.commandWritten w).snoop.result = s.snoop.result := rfl

/-! ### The command result (R181) -/

@[simp] theorem writeResult_positions (s : State) (c t : Byte) (o : CmdOutcome) :
    (s.writeResult c t o).positions = s.positions := rfl
@[simp] theorem writeResult_candidates (s : State) (c t : Byte) (o : CmdOutcome) :
    (s.writeResult c t o).candidates = s.candidates := rfl
@[simp] theorem writeResult_trigger (s : State) (c t : Byte) (o : CmdOutcome) :
    (s.writeResult c t o).trigger = s.trigger := rfl
@[simp] theorem writeResult_eval (s : State) (c t : Byte) (o : CmdOutcome) :
    (s.writeResult c t o).eval = s.eval := rfl
@[simp] theorem writeResult_path (s : State) (c t : Byte) (o : CmdOutcome) :
    (s.writeResult c t o).path = s.path := rfl
@[simp] theorem writeResult_notices (s : State) (c t : Byte) (o : CmdOutcome) :
    (s.writeResult c t o).notices = s.notices := rfl
@[simp] theorem writeResult_pending (s : State) (c t : Byte) (o : CmdOutcome) :
    (s.writeResult c t o).pending = s.pending := rfl
@[simp] theorem writeResult_settings (s : State) (c t : Byte) (o : CmdOutcome) :
    (s.writeResult c t o).snoop.settings = s.snoop.settings := rfl

/-- R181: the result that a command writes counts on from the result that stood before it. -/
theorem resultIs_writeResult {s r : State} (c t : Byte) (o : CmdOutcome) (h : r.snoop.result = s.snoop.result) :
    Claim.resultIs s (r.writeResult c t o) c t o := by
  rw [Claim.resultIs, ← h]
  exact ⟨rfl, rfl⟩

/-! ### The candidate list after FORGET CANDIDATES (R57) -/

@[simp] theorem forgetCandidates_candidates (s : State) :
    s.forgetCandidates.candidates = s.candidates.filter (fun e => e.claimed) := rfl
@[simp] theorem forgetCandidates_positions (s : State) : s.forgetCandidates.positions = s.positions := rfl
@[simp] theorem forgetCandidates_trigger (s : State) : s.forgetCandidates.trigger = s.trigger := rfl
@[simp] theorem forgetCandidates_eval (s : State) : s.forgetCandidates.eval = s.eval := rfl
@[simp] theorem forgetCandidates_path (s : State) : s.forgetCandidates.path = s.path := rfl
@[simp] theorem forgetCandidates_notices (s : State) : s.forgetCandidates.notices = s.notices := rfl
@[simp] theorem forgetCandidates_snoop (s : State) : s.forgetCandidates.snoop = s.snoop := rfl
@[simp] theorem forgetCandidates_pending (s : State) : s.forgetCandidates.pending = s.pending := rfl

/-- R180: code 7 hands the command to the candidate list, which always answers DONE. -/
theorem runCommand_forgetCandidates (s : State) (tag pos : Byte) :
    s.runCommand (BitVec.ofNat 8 7) tag pos = (s.forgetCandidates, .done) := rfl

/-- R57, R180, R181: FORGET CANDIDATES as a whole-word write that is carried at once in RUN. -/
theorem exec_forgetCandidates_run (dt : Nat) (tag pos upper : Byte) (s : State) (h : Claim.takesCommands s) :
    exec (.forgetCandidates dt tag pos upper 15) s =
      .next ((((s.elapse dt).commandWritten (commandWord 7 tag pos upper)).forgetCandidates).writeResult 7 tag .done) := by
  obtain ⟨hrun, hheld, hbus, hoverdue⟩ := h
  have hexec : exec (.forgetCandidates dt tag pos upper 15) s =
      .next ((s.elapse dt).writesCommand 7 tag pos upper 15) := rfl
  have hwrite := writesCommand_run (s.elapse dt) 7 tag pos upper hrun hheld hbus hoverdue
  rw [hexec, hwrite, runCommand_forgetCandidates]
  rfl

/-- Settles O53: the successor is written out by `exec_forgetCandidates_run`, and each clause is the composed frame of
its three updates. -/
theorem forgetKeepsOnlyClaimedCandidates : Obligations.ForgetKeepsOnlyClaimedCandidates := by
  intro dt tag pos upper s h
  refine ⟨_, exec_forgetCandidates_run dt tag pos upper s h, resultIs_writeResult 7 tag .done ?result, ?frame⟩
  case result => simp
  case frame => simp

end Sys2Proof.Machine
end

section
/-! The evaluations of a sample, of a twin pair and of a rate (R108 to R114). A layer of its own holds the tables: one
equation per row of each result function. Above it, each evaluation either is skipped or applies the row's result to its
record, and the obligation pairs every clause with one row. -/

namespace Sys2Proof.Machine

/-! ### The rows of the result tables -/

theorem lowResult_alarm {l : LimitSet} {h c : Int} (hc : c < l.target - l.lowAlarm) : lowResult l h c = .alarm :=
  if_pos hc

theorem lowResult_warn {l : LimitSet} {h c : Int} (ha : l.target - l.lowAlarm ≤ c) (hw : c < l.target - l.lowWarn) :
    lowResult l h c = .warn := by
  rw [lowResult, if_neg (Int.not_lt.mpr ha), if_pos hw]

theorem lowResult_band {l : LimitSet} {h c : Int} (ha : l.target - l.lowAlarm ≤ c) (hw : l.target - l.lowWarn ≤ c)
    (hb : c < l.target - l.lowWarn + h) : lowResult l h c = .band := by
  rw [lowResult, if_neg (Int.not_lt.mpr ha), if_neg (Int.not_lt.mpr hw), if_pos hb]

theorem lowResult_clear {l : LimitSet} {h c : Int} (ha : l.target - l.lowAlarm ≤ c) (hw : l.target - l.lowWarn ≤ c)
    (hb : l.target - l.lowWarn + h ≤ c) : lowResult l h c = .clear := by
  rw [lowResult, if_neg (Int.not_lt.mpr ha), if_neg (Int.not_lt.mpr hw), if_neg (Int.not_lt.mpr hb)]

theorem highResult_overRange (l : LimitSet) (h c : Int) : highResult l h c true = .warn := rfl

theorem highResult_above {l : LimitSet} {h c : Int} (o : Bool) (hc : l.target + l.highWarn < c) :
    highResult l h c o = .warn := by
  rw [highResult, if_pos hc, ite_self]

theorem highResult_clear {l : LimitSet} {h c : Int} (hg : c ≤ l.target + l.highWarn)
    (hc : c ≤ max 0 (l.target + l.highWarn - h)) : highResult l h c false = .clear := by
  rw [highResult, if_neg Bool.false_ne_true, if_neg (Int.not_lt.mpr hg), if_pos hc]

theorem highResult_band {l : LimitSet} {h c : Int} (hg : c ≤ l.target + l.highWarn)
    (hc : max 0 (l.target + l.highWarn - h) < c) : highResult l h c false = .band := by
  rw [highResult, if_neg Bool.false_ne_true, if_neg (Int.not_lt.mpr hg), if_neg (Int.not_le.mpr hc)]

theorem hotResult_alarm {l : LimitSet} {h t : Int} (ha : l.hotAlarm < t) : hotResult l h t = .alarm :=
  if_pos ha

theorem hotResult_warn {l : LimitSet} {h t : Int} (ha : t ≤ l.hotAlarm) (hw : l.hotWarn < t) :
    hotResult l h t = .warn := by
  rw [hotResult, if_neg (Int.not_lt.mpr ha), if_pos hw]

theorem hotResult_band {l : LimitSet} {h t : Int} (ha : t ≤ l.hotAlarm) (hw : t ≤ l.hotWarn) (hb : l.hotWarn - h < t) :
    hotResult l h t = .band := by
  rw [hotResult, if_neg (Int.not_lt.mpr ha), if_neg (Int.not_lt.mpr hw), if_pos hb]

theorem hotResult_clear {l : LimitSet} {h t : Int} (ha : t ≤ l.hotAlarm) (hw : t ≤ l.hotWarn) (hb : t ≤ l.hotWarn - h) :
    hotResult l h t = .clear := by
  rw [hotResult, if_neg (Int.not_lt.mpr ha), if_neg (Int.not_lt.mpr hw), if_neg (Int.not_lt.mpr hb)]

/-- R111: the sum of codes is 0 exactly when none of the three conditions holds. -/
theorem sensorValue_eq_zero_iff (x : Sample) :
    sensorValue x = 0 ↔ x.fault = false ∧ x.battery = false ∧ x.code ≠ 0 := by
  rw [sensorValue, Nat.add_eq_zero_iff, Nat.add_eq_zero_iff]
  simp [and_assoc]

theorem sensorResult_warn {x : Sample} (h : x.fault = true ∨ x.battery = true ∨ x.code = 0) :
    sensorResult x = .warn := by
  refine if_neg fun hzero => ?_
  obtain ⟨hf, hb, hc⟩ := (sensorValue_eq_zero_iff x).mp hzero
  simp only [hf, hb, Bool.false_eq_true, false_or] at h
  exact hc h

theorem sensorResult_clear {x : Sample} (h : sensorValue x = 0) : sensorResult x = .clear := if_pos h

theorem mismatchResult_warn {l h d : Int} (hd : l < d) : mismatchResult l h d = .warn := if_pos hd

theorem mismatchResult_clear {l h d : Int} (hl : d ≤ l) (hd : d ≤ max 0 (l - h)) : mismatchResult l h d = .clear := by
  rw [mismatchResult, if_neg (Int.not_lt.mpr hl), if_pos hd]

theorem mismatchResult_band {l h d : Int} (hl : d ≤ l) (hd : max 0 (l - h) < d) : mismatchResult l h d = .band := by
  rw [mismatchResult, if_neg (Int.not_lt.mpr hl), if_neg (Int.not_le.mpr hd)]

theorem leakResult_alarm {slow rapid q : Int} (hr : rapid ≤ q) : leakResult slow rapid q = .alarm := if_pos hr

theorem leakResult_warn {slow rapid q : Int} (hr : q < rapid) (hs : slow ≤ q) : leakResult slow rapid q = .warn := by
  rw [leakResult, if_neg (Int.not_le.mpr hr), if_pos hs]

theorem leakResult_clear {slow rapid q : Int} (hr : q < rapid) (hs : q < slow) : leakResult slow rapid q = .clear := by
  rw [leakResult, if_neg (Int.not_le.mpr hr), if_neg (Int.not_le.mpr hs)]

/-! ### The evaluations of a sample and of a rate: skipped, or the result applied to the record -/

section
variable {s : State} {p : Pos} {x : Sample} {res : EvalResult}

theorem evalLow_skipped (hx : x.cold = none) : s.evalLow p x = s := by
  rw [State.evalLow, hx]

theorem evalLow_applies {c : Nat} (hx : x.cold = some c)
    (hres : lowResult (s.limitsOf p) (s.setting .pressureHyst) c = res) :
    s.evalLow p x = s.evaluate p .low res c := by
  rw [State.evalLow, hx, ← hres]

theorem evalHigh_skipped_of_invalid (hx : x.cold = none) : s.evalHigh p x = s := by
  rw [State.evalHigh, hx]

theorem evalHigh_skipped_of_frozen (hs : s.frozen = true) : s.evalHigh p x = s := by
  cases hx : x.cold with
  | none => exact evalHigh_skipped_of_invalid hx
  | some c => simp only [State.evalHigh, hx, hs, if_true]

theorem evalHigh_applies {c : Nat} (hx : x.cold = some c) (hs : s.frozen = false)
    (hres : highResult (s.limitsOf p) (s.setting .pressureHyst) c (x.code == 1023) = res) :
    s.evalHigh p x = s.evaluate p .high res c := by
  simp only [State.evalHigh, hx, hs, hres, Bool.false_eq_true, if_false]

theorem evalHot_skipped (hx : x.temp = .absent ∨ x.temp = .invalid) : s.evalHot p x = s := by
  obtain hx | hx := hx <;> rw [State.evalHot, hx]

theorem evalHot_applies {t : Int} (hx : x.temp = .celsius t)
    (hres : hotResult (s.limitsOf p) (s.setting .tempHyst) t = res) :
    s.evalHot p x = s.evaluate p .hot res t := by
  rw [State.evalHot, hx, ← hres]

theorem evalSensor_applies {v : Int} (hres : sensorResult x = res) (hv : (sensorValue x : Int) = v) :
    s.evalSensor p x = s.evaluate p .sensor res v := by
  rw [State.evalSensor, hres, hv]

theorem evalLeak_applies {q : Int} (hres : leakResult (s.setting .leakLimits) (s.settingHigh .leakLimits) q = res) :
    s.evalLeak p q = s.evaluate p .leak res q := by
  rw [State.evalLeak, hres]

end

/-! ### Twin pairs (R59, R112) -/

theorem sideCoil_outerPos (c : Coil) : sideCoil (outerPos c) = some c := by revert c; decide

theorem sideCoil_innerPos (c : Coil) : sideCoil (innerPos c) = some c := by revert c; decide

theorem innerPos_ne_outerPos (c : Coil) : innerPos c ≠ outerPos c := by revert c; decide

/-- R59: the positions on a coil's side of its axle are its two slots. -/
theorem slot_of_sideCoil {p : Pos} {c : Coil} (h : sideCoil p = some c) : p = outerPos c ∨ p = innerPos c := by
  revert p c; decide

/-- R112: `p` and `q` are the two slots of a coil's axle side, in either order. -/
def slotsOf (c : Coil) (p q : Pos) : Prop :=
  (p = outerPos c ∧ q = innerPos c) ∨ (p = innerPos c ∧ q = outerPos c)

theorem sideCoil_of_slotsOf {c : Coil} {p q : Pos} (h : slotsOf c p q) : sideCoil p = some c := by
  obtain ⟨rfl, -⟩ | ⟨rfl, -⟩ := h
  · exact sideCoil_outerPos c
  · exact sideCoil_innerPos c

theorem twinPartner_of_slotsOf {w : Word} {c : Coil} {p q : Pos} (hc : axleKind w (coilAxle c) = .twin)
    (h : slotsOf c p q) : twinPartner w p = some q := by
  simp only [twinPartner, sideCoil_of_slotsOf h, hc, if_true]
  obtain ⟨rfl, rfl⟩ | ⟨rfl, rfl⟩ := h
  · exact if_pos rfl
  · exact if_neg (innerPos_ne_outerPos c)

theorem pairOuter_of_slotsOf {w : Word} {c : Coil} {p q : Pos} (hc : axleKind w (coilAxle c) = .twin)
    (h : slotsOf c p q) : pairOuter w p = some (outerPos c) := by
  simp only [pairOuter, sideCoil_of_slotsOf h, hc, if_true]

theorem twinPartner_eq_none {w : Word} {p : Pos}
    (h : ∀ c : Coil, axleKind w (coilAxle c) = .twin → p ≠ outerPos c ∧ p ≠ innerPos c) : twinPartner w p = none := by
  cases hp : sideCoil p with
  | none => simp only [twinPartner, hp]
  | some c =>
    have hkind : axleKind w (coilAxle c) ≠ .twin := fun hc => by
      obtain ⟨hout, hin⟩ := h c hc
      exact (slot_of_sideCoil hp).elim hout hin
    simp only [twinPartner, hp, hkind, if_false]

/-! ### MISMATCH (R112, R113) -/

section
variable {s : State} {c : Coil} {p q : Pos}

/-- R113: what suspends the evaluation of a pair. -/
def mismatchSuspended (s : State) (p q : Pos) : Prop :=
  (s.posAt p).state ≠ .bound ∨ (s.posAt q).state ≠ .bound ∨ (s.posAt p).cold = none ∨ (s.posAt q).cold = none ∨
    s.lifted p = true ∨ s.frozen = true

theorem evalMismatch_no_pair (h : twinPartner s.layout p = none) : s.evalMismatch p = s := by
  simp only [State.evalMismatch, h]

theorem evalMismatch_skipped (hc : axleKind s.layout (coilAxle c) = .twin) (hpq : slotsOf c p q)
    (h : mismatchSuspended s p q) : s.evalMismatch p = s := by
  simp only [State.evalMismatch, twinPartner_of_slotsOf hc hpq, pairOuter_of_slotsOf hc hpq]
  split
  next a b ha hb =>
    refine if_neg fun hready => ?_
    obtain ⟨hp, hq, hlift, hfrozen⟩ := hready
    simp [mismatchSuspended, PosRec.cold, hp, hq, hlift, hfrozen, ha, hb] at h
  next => rfl

theorem evalMismatch_applies {a b : Nat} {res : EvalResult} (hc : axleKind s.layout (coilAxle c) = .twin)
    (hpq : slotsOf c p q) (hp : (s.posAt p).state = .bound) (hq : (s.posAt q).state = .bound)
    (ha : (s.posAt p).cold = some a) (hb : (s.posAt q).cold = some b) (hlift : s.lifted p = false)
    (hfrozen : s.frozen = false)
    (hres : mismatchResult (s.setting .mismatchLimit) (s.setting .pressureHyst) ((a : Int) - b).natAbs = res) :
    s.evalMismatch p = s.evaluate (outerPos c) .mismatch res ((a : Int) - b).natAbs := by
  rw [PosRec.cold] at ha hb
  simp only [State.evalMismatch, twinPartner_of_slotsOf hc hpq, pairOuter_of_slotsOf hc hpq, ha, hb]
  rw [if_pos ⟨hp, hq, hlift, hfrozen⟩, hres]

end

/-- Settles O16: each clause is one row of its table under the lemma that the evaluation applies that row's result, or the
lemma that it is skipped. -/
theorem evaluationsOfASample : Obligations.EvaluationsOfASample := by
  refine ⟨?skipped, ?low, ?high, ?hot, ?sensor, ?noPair, ?pair, ?leak⟩
  case skipped =>
    exact fun s p x => ⟨fun hx => ⟨evalLow_skipped hx, evalHigh_skipped_of_invalid hx⟩, evalHigh_skipped_of_frozen,
      evalHot_skipped⟩
  case low =>
    intro s p x c hx
    exact ⟨fun ha => evalLow_applies hx (lowResult_alarm ha), fun ha hw => evalLow_applies hx (lowResult_warn ha hw),
      fun ha hw hb => evalLow_applies hx (lowResult_band ha hw hb),
      fun ha hw hb => evalLow_applies hx (lowResult_clear ha hw hb)⟩
  case high =>
    intro s p x c hx hs
    refine ⟨?_, fun hcode hg hc => ?_, fun hcode hg hc => ?_⟩
    · rintro (hcode | hg) <;> refine evalHigh_applies hx hs ?_
      · rw [beq_iff_eq.mpr hcode, highResult_overRange]
      · exact highResult_above _ hg
    · exact evalHigh_applies hx hs (by rw [beq_eq_false_iff_ne.mpr hcode, highResult_clear hg hc])
    · exact evalHigh_applies hx hs (by rw [beq_eq_false_iff_ne.mpr hcode, highResult_band hg hc])
  case hot =>
    intro s p x t hx
    exact ⟨fun ha => evalHot_applies hx (hotResult_alarm ha), fun ha hw => evalHot_applies hx (hotResult_warn ha hw),
      fun ha hw hb => evalHot_applies hx (hotResult_band ha hw hb),
      fun ha hw hb => evalHot_applies hx (hotResult_clear ha hw hb)⟩
  case sensor =>
    intro s p x
    refine ⟨fun h => evalSensor_applies (sensorResult_warn h) (by simp [sensorValue]), fun h => ?_⟩
    have hzero : sensorValue x = 0 := (sensorValue_eq_zero_iff x).mpr h
    exact evalSensor_applies (sensorResult_clear hzero) (by rw [hzero]; rfl)
  case noPair => exact fun s p h => evalMismatch_no_pair (twinPartner_eq_none h)
  case pair =>
    intro s c p q hc hpq
    refine ⟨evalMismatch_skipped hc hpq, fun a b hp hq ha hb hlift hfrozen => ?_⟩
    exact ⟨fun hd => evalMismatch_applies hc hpq hp hq ha hb hlift hfrozen (mismatchResult_warn hd),
      fun hl hd => evalMismatch_applies hc hpq hp hq ha hb hlift hfrozen (mismatchResult_clear hl hd),
      fun hl hd => evalMismatch_applies hc hpq hp hq ha hb hlift hfrozen (mismatchResult_band hl hd)⟩
  case leak =>
    intro s p q
    exact ⟨fun hr => evalLeak_applies (leakResult_alarm hr), fun hr hs => evalLeak_applies (leakResult_warn hr hs),
      fun hr hs => evalLeak_applies (leakResult_clear hr hs)⟩

end Sys2Proof.Machine
end

section
/-! The page hold word (R141). First the way of any live word from the bus to its owner (R175, R177), then what the owner of
the hold word does: it changes the sweep unit only, by one of the rows of R141's table. -/

namespace Sys2Proof.Machine

/-! ### A live word on its way to its owner (R175, R177) -/

/-- 11.2: no non-live word stands at the offset of a live word. -/
theorem settingWordAt_liveOffset (l : LiveWord) : settingWordAt l.offset = none := by cases l <;> decide

/-- 11.2: each live word is found at its own offset. -/
theorem liveWordAt_offset (l : LiveWord) : liveWordAt l.offset = some l := by cases l <;> decide

/-- 11.2: the live words lie in the settings page. -/
theorem liveOffset_lt (l : LiveWord) : l.offset < 0x400 := by cases l <;> decide

/-- R175: in LOADING and in RUN the snoop takes writes. -/
theorem takesWrites_of_loading_or_run {op : OpState} (h : op = .loading ∨ op = .run) : op.takesWrites = true := by
  obtain rfl | rfl := h <;> rfl

/-- R175, R177: a write of a live word with an enable on, in a state that takes writes, acts by its merged word. -/
theorem takeWord_live {s : State} {w : HostWord} (l : LiveWord) (hop : s.control.op.takesWrites = true)
    (hen : w.enables ≠ 0) :
    s.takeWord l.offset w = s.takeLive l (mergeBytes (s.liveCopy l) w) (w.enables == 15) := by
  have htaken : ¬(s.control.op.takesWrites = false ∨ w.enables = 0) := by
    rw [hop]
    exact not_or.mpr ⟨Bool.noConfusion, hen⟩
  rw [State.takeWord, if_neg htaken, settingWordAt_liveOffset, liveWordAt_offset]

/-- R172, R175, R177: a host write of a live word that is carried at once: memory takes it, and its owner the merged
word. -/
theorem writesSetting_live {s : State} {w : HostWord} (l : LiveWord) (h : Claim.takesLiveWords s) (hen : w.enables ≠ 0) :
    s.writesSetting l.offset w =
      (s.carryWrite (s.windowBase + l.offset) [w]).takeLive l (mergeBytes (s.liveCopy l) w) (w.enables == 15) := by
  obtain ⟨hop, hheld, hbus, hoverdue⟩ := h
  have hwrites : (s.carryWrite (s.windowBase + l.offset) [w]).control.op.takesWrites = true :=
    takesWrites_of_loading_or_run hop
  rw [writesSetting_free s _ w (liveOffset_lt l) hheld hbus hoverdue, takeWord_live l hwrites hen]
  rfl

/-- The passing of time does not disturb the conditions under which a live word is taken. -/
theorem takesLiveWords_elapse {s : State} (dt : Nat) (h : Claim.takesLiveWords s) :
    Claim.takesLiveWords (s.elapse dt) := h

/-! ### The hold word taken (R141) -/

/-- R141: taking the hold word changes the sweep unit only. -/
theorem takeHold_eq_sweep (s : State) (v : Word) : s.takeHold v = { s with sweep := (s.takeHold v).sweep } := by
  unfold State.takeHold
  split <;> rfl

@[simp] theorem takeHold_positions (s : State) (v : Word) : (s.takeHold v).positions = s.positions := by
  rw [takeHold_eq_sweep]
@[simp] theorem takeHold_notices (s : State) (v : Word) : (s.takeHold v).notices = s.notices := by
  rw [takeHold_eq_sweep]
@[simp] theorem takeHold_snoop (s : State) (v : Word) : (s.takeHold v).snoop = s.snoop := by
  rw [takeHold_eq_sweep]
@[simp] theorem takeHold_mem (s : State) (v : Word) : (s.takeHold v).mem = s.mem := by
  rw [takeHold_eq_sweep]
@[simp] theorem takeHold_pending (s : State) (v : Word) : (s.takeHold v).pending = s.pending := by
  rw [takeHold_eq_sweep]
@[simp] theorem takeHold_liveCopy (s : State) (v : Word) (l : LiveWord) : (s.takeHold v).liveCopy l = s.liveCopy l := by
  rw [takeHold_eq_sweep]
  rfl

/-- R141, the first two rows: a nonzero word holds the front page, whatever the hold was. -/
theorem takeHold_nonzero {s : State} {v : Word} (hv : v ≠ 0) :
    (s.takeHold v).sweep = { s.sweep with hold := .held } := by
  rw [State.takeHold, if_neg hv]

/-- R141, the third row: a release with a deferred flip and no publication IN PROGRESS flips at once. -/
theorem takeHold_zero_flips {s : State} (hflip : s.sweep.deferredFlip = true) (hpub : s.sweep.publication = none) :
    (s.takeHold 0).sweep = ({ s.sweep with hold := .released } : Sweep).flip := by
  rw [State.takeHold, if_pos rfl]
  exact if_pos ⟨hflip, hpub⟩

/-- R141, the third row: a release without a deferred flip, or under a publication IN PROGRESS, makes no flip. -/
theorem takeHold_zero_releases {s : State} (h : s.sweep.deferredFlip = false ∨ s.sweep.publication ≠ none) :
    (s.takeHold 0).sweep = { s.sweep with hold := .released } := by
  have hstay : ¬(s.sweep.deferredFlip = true ∧ s.sweep.publication = none) := by
    rintro ⟨hflip, hpub⟩
    obtain hclear | hbusy := h
    · simp [hclear] at hflip
    · exact hbusy hpub
  rw [State.takeHold, if_pos rfl]
  exact if_neg hstay

/-- R141: the state in which the hold word is taken: memory and the copy of the hold word hold the write. -/
def State.holdWritten (s : State) (w : HostWord) : State :=
  (s.carryWrite (s.windowBase + LiveWord.pageHold.offset) [w]).setLive .pageHold (mergeBytes (s.liveCopy .pageHold) w)

/-- R141, R175: a write of the hold word that is carried at once in LOADING or in RUN. -/
theorem exec_pageHold_free {s : State} {w : HostWord} (dt : Nat) (h : Claim.takesLiveWords s) (hen : w.enables ≠ 0) :
    exec (.pageHold dt w) s =
      .next (((s.elapse dt).holdWritten w).takeHold (mergeBytes (s.liveCopy .pageHold) w)) := by
  have hexec : exec (.pageHold dt w) s = .next ((s.elapse dt).writesSetting LiveWord.pageHold.offset w) := rfl
  rw [hexec, writesSetting_live .pageHold (takesLiveWords_elapse dt h) hen]
  rfl

@[simp] theorem holdWritten_sweep (s : State) (w : HostWord) : (s.holdWritten w).sweep = s.sweep := rfl
@[simp] theorem holdWritten_positions (s : State) (w : HostWord) : (s.holdWritten w).positions = s.positions := rfl
@[simp] theorem holdWritten_notices (s : State) (w : HostWord) : (s.holdWritten w).notices = s.notices := rfl
@[simp] theorem holdWritten_settings (s : State) (w : HostWord) :
    (s.holdWritten w).snoop.settings = s.snoop.settings := rfl
@[simp] theorem holdWritten_pending (s : State) (w : HostWord) : (s.holdWritten w).pending = s.pending := rfl
@[simp] theorem holdWritten_liveCopy (s : State) (w : HostWord) :
    (s.holdWritten w).liveCopy .pageHold = mergeBytes (s.liveCopy .pageHold) w := setLive_liveCopy_same _ _ _
@[simp] theorem holdWritten_mem (s : State) (w : HostWord) :
    (s.holdWritten w).mem = writeWord s.mem (s.windowBase + LiveWord.pageHold.offset) w := rfl

/-- Settles O45: the successor is written out by `exec_pageHold_free`; the clauses of the sweep unit are the rows of R141's
table, the others the frames of the write and of the taking. -/
theorem pageHoldIsTaken : Obligations.PageHoldIsTaken := by
  intro dt w s h hen
  refine ⟨_, exec_pageHold_free dt h hen, takeHold_nonzero, ?flips, ?releases, ?copy, ?positions, ?notices, ?settings,
    ?memory, ?pending⟩
  case flips =>
    intro hzero hflip hpub
    rw [hzero]
    exact takeHold_zero_flips hflip hpub
  case releases =>
    intro hzero hstay
    rw [hzero]
    exact takeHold_zero_releases hstay
  case copy => exact (takeHold_liveCopy _ _ _).trans (holdWritten_liveCopy (s.elapse dt) w)
  case positions => simp
  case notices => simp
  case settings => simp
  case memory => exact (takeHold_mem _ _).trans (holdWritten_mem (s.elapse dt) w)
  case pending => simp

end Sys2Proof.Machine
end

section
/-! What every command keeps. A property that the passing of time, the levels of the lines and the operations behind
the commands keep is kept by every command and by every step: the case split over the 48 rows of the dispatch is made
once, here, and each invariant of the machine is an application of it. -/

namespace Sys2Proof.Machine

/-! ### Host transactions of the command rows (R163) -/

/-- R163: a row that presents a host transaction does nothing but that, after its time has passed. -/
theorem exec_presented {c : Instr} {s : State} {dt : Nat} {x : HostTxn} (h : Claim.presented c s = some (dt, x)) :
    exec c s = .next ((s.elapse dt).present x) := by
  cases c
  case settingsWrite dt' offset d =>
    cases h
    have hbase : s.windowBase = 0x100000 * s.pins.straps.toNat := rfl
    have hstart : writeStart d (s.windowBase + offset.toNat) = s.windowBase + writeStart d offset.toNat := by
      cases d <;> simp only [writeStart] <;> omega
    change Host.Outcome.next (((s.elapse dt).present (.write (writeStart d (s.windowBase + offset.toNat)) _))) = _
    rw [hstart]
  all_goals first | (cases h; rfl) | cases h

/-! ### The principle -/

/-- What a property must be closed under for every command to keep it: one field for each operation that stands behind a
command, the time and the lines among them. -/
structure KeptByCommands (I : State → Prop) : Prop where
  elapse : ∀ s dt, I s → I (s.elapse dt)
  pins : ∀ (s : State) x, I s → I { s with pins := x }
  refIgn : ∀ (s : State) b, I s → I { s with control := { s.control with refIgn := b } }
  refTrl : ∀ (s : State) b, I s → I { s with control := { s.control with refTrl := b } }
  refHup : ∀ (s : State) b, I s → I { s with control := { s.control with refHup := b } }
  enterReset : ∀ s, I s → I s.enterReset
  release : ∀ s, I s → I s.release
  startLoading : ∀ s, I s → I s.startLoading
  enterWatch : ∀ s, I s → I s.enterWatch
  hostUp : ∀ s, I s → I s.hostUp
  hostDown : ∀ s, I s → I s.hostDown
  offerRechecks : ∀ s, I s → I s.offerRechecks
  offerAttaches : ∀ s, I s → I s.offerAttaches
  trailerFall : ∀ s : State, I s → I (s.tearDown (fun c => axleTrailer s.layout (coilAxle c))).detachTrailer
  endSettling : ∀ s l, I s → I (s.endSettling l)
  takeDelivery : ∀ s l bytes ended onFirst, I s → I (s.takeDelivery l bytes ended onFirst)
  settleDue : ∀ s, I s → I s.settleDue
  schedule : ∀ s, I s → I s.schedule
  setCoil : ∀ s c x, I s → I (s.setCoil c x)
  closeRecords : ∀ (s : State) c, I s → I { s with trigger := { s.trigger with records := s.trigger.records.map (fun r =>
      if r.coil = c ∧ r.openEnds ≤ s.now then { r with closing := true } else r) } }
  classify : ∀ (s : State) r, r ∈ s.trigger.records → I s → I (s.classify r)
  expireIfReached : ∀ s p, I s → I (s.expireIfReached p)
  settleEnd : ∀ (s : State) x, I s → I { s with eval := { s.eval with settleEnd := x } }
  escalation : ∀ s : State, I s → I { s with eval := { s.eval with escalation := s.eval.escalation.expireAt s.now } }
  lamp : ∀ s : State, I s → I { s with eval := { s.eval with lamp := s.eval.lamp.toggleAt s.now } }
  sweepExpires : ∀ s, I s → I s.sweepExpires
  captureNext : ∀ s, I s → I s.captureNext
  reofferKept : ∀ s, I s → I s.reofferKept
  issueInGap : ∀ s, I s → I s.issueInGap
  headWaited : ∀ s, I s → I s.headWaited
  completeAccess : ∀ s, I s → I s.completeAccess
  startWindow : ∀ s, I s → I s.startWindow
  followEnables : ∀ s, I s → I s.followEnables
  windowEnd : ∀ (s : State) x, I s → I { s with control := { s.control with windowEnd := x } }
  deepWatch : ∀ s : State, I s → I { s with control := { s.control with op := .deepWatch, deepEnd := none } }
  present : ∀ s x, I s → I (s.present x)

/-- The row presents a host transaction. -/
theorem KeptByCommands.presented {I : State → Prop} (h : KeptByCommands I) {c : Instr} {s t : State} {dt : Nat}
    {x : HostTxn} (hc : Claim.presented c s = some (dt, x)) (hs : I s) (e : exec c s = .next t) : I t := by
  obtain rfl := Host.Outcome.next.inj ((exec_presented hc).symm.trans e)
  exact h.present _ _ (h.elapse _ _ hs)

/-- Every command keeps a property that the operations behind the commands keep. -/
theorem KeptByCommands.exec {I : State → Prop} (h : KeptByCommands I) {c : Instr} {s t : State} (hs : I s)
    (e : exec c s = .next t) : I t := by
  cases c
  case resetEntry dt cause =>
    obtain rfl := Host.Outcome.next.inj e
    have hp := h.pins _ (s.pins.fail cause) (h.elapse _ dt hs)
    split
    · exact hp
    · exact h.release _ (h.enterReset _ hp)
  case resetExit dt =>
    simp only [Machine.exec, execResetExit] at e
    split at e <;> obtain rfl := Host.Outcome.next.inj e
    · have hp := h.refHup _ s.pins.hup (h.refTrl _ s.pins.trl (h.refIgn _ s.pins.ign
        (h.pins _ { s.pins with resetN := true, supplyOk := true } (h.elapse _ dt hs))))
      split
      · exact h.startLoading _ hp
      · exact h.enterWatch _ hp
    · exact h.elapse _ dt hs
  case hostUpRise dt =>
    simp only [Machine.exec, execHostUpRise] at e
    split at e
    · obtain rfl := Host.Outcome.next.inj e; exact h.elapse _ dt hs
    · have hp := h.pins _ { s.pins with hup := true } (h.elapse _ dt hs)
      split at e <;> obtain rfl := Host.Outcome.next.inj e
      · exact hp
      · have hr := h.refHup _ true hp
        split
        · exact h.hostUp _ hr
        · exact hr
  case hostUpFall dt =>
    simp only [Machine.exec, execHostUpFall] at e
    split at e
    · obtain rfl := Host.Outcome.next.inj e; exact h.elapse _ dt hs
    · have hp := h.pins _ { s.pins with hup := false } (h.elapse _ dt hs)
      split at e <;> obtain rfl := Host.Outcome.next.inj e
      · exact hp
      · have hr := h.refHup _ false hp
        split
        · exact h.release _ (h.hostDown _ hr)
        · exact hr
  case ignitionRise dt =>
    simp only [Machine.exec, execIgnitionRise] at e
    split at e
    · obtain rfl := Host.Outcome.next.inj e; exact h.elapse _ dt hs
    · have hp := h.pins _ { s.pins with ign := true } (h.elapse _ dt hs)
      split at e <;> obtain rfl := Host.Outcome.next.inj e
      · exact hp
      · have hr := h.refIgn _ true hp
        split
        · exact h.offerRechecks _ hr
        · exact hr
  case ignitionFall dt =>
    obtain rfl := Host.Outcome.next.inj e
    have hp := h.pins _ { s.pins with ign := false } (h.elapse _ dt hs)
    split
    · exact hp
    · exact h.refIgn _ false hp
  case trailerPresentRise dt =>
    simp only [Machine.exec, execTrailerPresentRise] at e
    split at e
    · obtain rfl := Host.Outcome.next.inj e; exact h.elapse _ dt hs
    · have hp := h.pins _ { s.pins with trl := true } (h.elapse _ dt hs)
      split at e <;> obtain rfl := Host.Outcome.next.inj e
      · exact hp
      · have hr := h.refTrl _ true hp
        split
        · exact h.offerAttaches _ hr
        · exact hr
  case trailerPresentFall dt =>
    simp only [Machine.exec, execTrailerPresentFall] at e
    split at e
    · obtain rfl := Host.Outcome.next.inj e; exact h.elapse _ dt hs
    · have hp := h.pins _ { s.pins with trl := false } (h.elapse _ dt hs)
      split at e <;> obtain rfl := Host.Outcome.next.inj e
      · exact hp
      · exact h.trailerFall _ (h.refTrl _ false hp)
  case windowBaseChange dt straps =>
    obtain rfl := Host.Outcome.next.inj e
    exact h.pins _ { s.pins with straps := straps } (h.elapse _ dt hs)
  case laneSettlingEnd dt lane =>
    obtain rfl := Host.Outcome.next.inj e; exact h.endSettling _ _ (h.elapse _ dt hs)
  case delivery dt lane bytes sinceEnd onFirst =>
    obtain rfl := Host.Outcome.next.inj e; exact h.takeDelivery _ _ _ _ _ (h.elapse _ dt hs)
  case entrySettle dt => obtain rfl := Host.Outcome.next.inj e; exact h.settleDue _ (h.elapse _ dt hs)
  case fireStart dt => obtain rfl := Host.Outcome.next.inj e; exact h.schedule _ (h.elapse _ dt hs)
  case burstEnd dt coil =>
    simp only [Machine.exec, execBurstEnd] at e
    split at e
    · split at e <;> obtain rfl := Host.Outcome.next.inj e
      · exact h.setCoil _ _ _ (h.elapse _ dt hs)
      · exact h.elapse _ dt hs
    all_goals obtain rfl := Host.Outcome.next.inj e; exact h.elapse _ dt hs
  case recoveringEnd dt coil =>
    simp only [Machine.exec, execRecoveringEnd] at e
    split at e
    · split at e <;> obtain rfl := Host.Outcome.next.inj e
      · exact h.setCoil _ _ _ (h.elapse _ dt hs)
      · exact h.elapse _ dt hs
    all_goals obtain rfl := Host.Outcome.next.inj e; exact h.elapse _ dt hs
  case openPeriodEnd dt coil =>
    obtain rfl := Host.Outcome.next.inj e; exact h.closeRecords _ coil (h.elapse _ dt hs)
  case classification dt coil =>
    simp only [Machine.exec, execClassification] at e
    split at e <;> obtain rfl := Host.Outcome.next.inj e
    · rename_i r hr
      exact h.classify _ r (List.mem_of_find?_eq_some hr) (h.elapse _ dt hs)
    · exact h.elapse _ dt hs
  case silenceDeadlineExpiry dt p =>
    obtain rfl := Host.Outcome.next.inj e; exact h.expireIfReached _ _ (h.elapse _ dt hs)
  case tippingSettleEnd dt =>
    simp only [Machine.exec, execTippingSettleEnd] at e
    split at e <;> obtain rfl := Host.Outcome.next.inj e
    · exact h.settleEnd _ none (h.elapse _ dt hs)
    · exact h.elapse _ dt hs
  case escalationExpiry dt => obtain rfl := Host.Outcome.next.inj e; exact h.escalation _ (h.elapse _ dt hs)
  case lampFlashHalfPeriod dt => obtain rfl := Host.Outcome.next.inj e; exact h.lamp _ (h.elapse _ dt hs)
  case sweepExpiry dt =>
    simp only [Machine.exec, execSweepExpiry] at e
    split at e <;> obtain rfl := Host.Outcome.next.inj e
    · exact h.sweepExpires _ (h.elapse _ dt hs)
    · exact h.elapse _ dt hs
  case groupCapture dt => obtain rfl := Host.Outcome.next.inj e; exact h.captureNext _ (h.elapse _ dt hs)
  case keptEntryReoffer dt => obtain rfl := Host.Outcome.next.inj e; exact h.reofferKept _ (h.elapse _ dt hs)
  case headIssue dt => obtain rfl := Host.Outcome.next.inj e; exact h.issueInGap _ (h.elapse _ dt hs)
  case headOverdue dt => obtain rfl := Host.Outcome.next.inj e; exact h.headWaited _ (h.elapse _ dt hs)
  case partAccessComplete dt =>
    obtain rfl := Host.Outcome.next.inj e
    split
    · exact h.release _ (h.completeAccess _ (h.elapse _ dt hs))
    · exact h.elapse _ dt hs
  case listenWindowStart dt =>
    simp only [Machine.exec, execListenWindowStart] at e
    split at e <;> obtain rfl := Host.Outcome.next.inj e
    · exact h.startWindow _ (h.elapse _ dt hs)
    · exact h.elapse _ dt hs
  case listenWindowEnd dt =>
    simp only [Machine.exec, execListenWindowEnd] at e
    split at e <;> obtain rfl := Host.Outcome.next.inj e
    · exact h.followEnables _ (h.windowEnd _ none (h.elapse _ dt hs))
    · exact h.elapse _ dt hs
  case deepWatchExpiry dt =>
    simp only [Machine.exec, execDeepWatchExpiry] at e
    split at e <;> obtain rfl := Host.Outcome.next.inj e
    · exact h.deepWatch _ (h.elapse _ dt hs)
    · exact h.elapse _ dt hs
  all_goals exact h.presented rfl hs e

/-- Every step keeps a property that the commands keep and that does not look at the queue of commands. -/
theorem KeptByCommands.step {I : State → Prop} (h : KeptByCommands I)
    (hq : ∀ (s : State) q, I s → I { s with pending := q }) : stepKeeps I := by
  intro s t hs e
  unfold Machine.step at e
  split at e
  · obtain rfl := Host.Outcome.next.inj e; exact h.elapse _ _ hs
  · exact h.exec (hq _ _ hs) e

/-! ### The canonical form of the memory -/

/-- The same shell keeps the canonical form. -/
theorem memoryForm_of_shell {s t : State} (e : t.shell = s.shell) (h : Memory.wf s.mem = true) :
    Memory.wf t.mem = true := mem_of_shell e ▸ h

/-- The rise of host-up leaves the shell alone. -/
theorem hostUp_shell (s : State) : s.hostUp.shell = s.shell := by
  unfold State.hostUp
  dsimp only
  split <;> simp

/-- The operations behind the commands keep the canonical form: all but the three that write memory leave the shell. -/
theorem memoryForm_kept : KeptByCommands (fun s => Memory.wf s.mem = true) where
  elapse _ _ h := h
  pins _ _ h := h
  refIgn _ _ h := h
  refTrl _ _ h := h
  refHup _ _ h := h
  enterReset _ := memoryForm_of_shell (by simp)
  release := release_wf
  startLoading _ := memoryForm_of_shell (by simp)
  enterWatch _ := memoryForm_of_shell (by simp)
  hostUp _ := memoryForm_of_shell (hostUp_shell _)
  hostDown _ := memoryForm_of_shell (by simp)
  offerRechecks _ := memoryForm_of_shell (by simp)
  offerAttaches _ := memoryForm_of_shell (by simp)
  trailerFall _ := memoryForm_of_shell (shell_of_base (by simp))
  endSettling _ _ := memoryForm_of_shell (shell_of_base (by simp))
  takeDelivery _ _ _ _ _ := memoryForm_of_shell (shell_of_base (by simp))
  settleDue _ := memoryForm_of_shell (shell_of_base (by simp))
  schedule _ := memoryForm_of_shell (by simp)
  setCoil _ _ _ h := h
  closeRecords _ _ h := h
  classify _ _ _ := memoryForm_of_shell (shell_of_base (by simp))
  expireIfReached _ _ := memoryForm_of_shell (shell_of_base (by simp))
  settleEnd _ _ h := h
  escalation _ h := h
  lamp _ h := h
  sweepExpires _ := memoryForm_of_shell (by simp)
  captureNext _ := memoryForm_of_shell (by simp)
  reofferKept _ := memoryForm_of_shell (by simp)
  issueInGap _ := memoryForm_of_shell (by simp)
  headWaited _ := memoryForm_of_shell (by simp)
  completeAccess := completeAccess_wf
  startWindow _ := memoryForm_of_shell (by simp)
  followEnables _ := memoryForm_of_shell (by simp)
  windowEnd _ _ h := h
  deepWatch _ h := h
  present := present_wf

/-- Settles O55: the canonical form is a property that the operations behind the commands keep. -/
theorem everyStepKeepsTheMemoryForm : Obligations.EveryStepKeepsTheMemoryForm :=
  memoryForm_kept.step (fun _ _ h => h)

/-! ### Every command answers (log 27) -/

/-- The same outer part keeps the queue of commands. -/
theorem pending_of_outer {s t : State} {q : List Instr} (e : t.outer = s.outer) (h : s.pending = q) : t.pending = q :=
  (congrArg Outer.pending e).trans h

/-- The same base keeps the queue of commands. -/
theorem pending_of_base {s t : State} {q : List Instr} (e : t.base = s.base) (h : s.pending = q) : t.pending = q :=
  (congrArg Base.pending e).trans h

/-- The same shell keeps the queue of commands. -/
theorem pending_of_shell {s t : State} {q : List Instr} (e : t.shell = s.shell) (h : s.pending = q) : t.pending = q :=
  pending_of_outer (outer_of_shell e) h

/-- No operation behind a command touches the queue of commands. -/
theorem pending_kept (q : List Instr) : KeptByCommands (fun s => s.pending = q) where
  elapse _ _ h := h
  pins _ _ h := h
  refIgn _ _ h := h
  refTrl _ _ h := h
  refHup _ _ h := h
  enterReset _ h := h
  release _ := pending_of_outer (by simp)
  startLoading _ := pending_of_shell (by simp)
  enterWatch _ := pending_of_shell (by simp)
  hostUp _ := pending_of_shell (hostUp_shell _)
  hostDown _ := pending_of_shell (by simp)
  offerRechecks _ := pending_of_shell (by simp)
  offerAttaches _ := pending_of_shell (by simp)
  trailerFall _ := pending_of_base (by simp)
  endSettling _ _ := pending_of_base (by simp)
  takeDelivery _ _ _ _ _ := pending_of_base (by simp)
  settleDue _ := pending_of_base (by simp)
  schedule _ := pending_of_base (by simp)
  setCoil _ _ _ h := h
  closeRecords _ _ h := h
  classify _ _ _ := pending_of_base (by simp)
  expireIfReached _ _ := pending_of_base (by simp)
  settleEnd _ _ h := h
  escalation _ h := h
  lamp _ h := h
  sweepExpires _ := pending_of_shell (by simp)
  captureNext _ := pending_of_shell (by simp)
  reofferKept _ := pending_of_shell (by simp)
  issueInGap _ := pending_of_shell (by simp)
  headWaited _ h := h
  completeAccess _ := pending_of_outer (by simp)
  startWindow _ := pending_of_shell (by simp)
  followEnables _ := pending_of_base (by simp)
  windowEnd _ _ h := h
  deepWatch _ h := h
  present _ _ := pending_of_outer (by simp)

/-- Log 27: every row of the dispatch answers a next state, on every branch of its meaning. -/
theorem exec_total (c : Instr) (s : State) : ∃ t, exec c s = .next t := by
  cases c
  case resetExit | hostUpRise | hostUpFall | ignitionRise | trailerPresentRise | trailerPresentFall | burstEnd
      | recoveringEnd | classification | tippingSettleEnd | sweepExpiry | listenWindowStart | listenWindowEnd
      | deepWatchExpiry =>
    simp only [Machine.exec, execResetExit, execHostUpRise, execHostUpFall, execIgnitionRise, execTrailerPresentRise,
      execTrailerPresentFall, execBurstEnd, execRecoveringEnd, execClassification, execTippingSettleEnd,
      execSweepExpiry, execListenWindowStart, execListenWindowEnd, execDeepWatchExpiry]
    repeat' split
    all_goals exact ⟨_, rfl⟩
  all_goals exact ⟨_, rfl⟩

/-- Settles O2: every row answers, and the queue of commands is a part that no operation behind a command touches. -/
theorem everyCommandAnswersANextState : Obligations.EveryCommandAnswersANextState := by
  intro c s
  obtain ⟨t, e⟩ := exec_total c s
  exact ⟨t, e, (pending_kept s.pending).exec rfl e⟩

/-- Settles O1: the two branches of the step function. -/
theorem stepRunsTheFrontCommand : Obligations.StepRunsTheFrontCommand := by
  refine ⟨fun c rest s h => ?_, fun s h => ?_⟩
  · unfold Machine.step; rw [h]
  · unfold Machine.step; rw [h]

end Sys2Proof.Machine
end

section
/-! What the operations on notices and alert records leave alone. `State.vehicle` is the part that no notice touches, and
`State.tables` the part that no change of an alert record touches: the position records but for their alerts and SILENT,
the candidate list, the trigger unit and the intake unit. With `State.base` they are the whole state but for the
notices, the outbound queue and the outputs. -/

namespace Sys2Proof.Machine

/-! ### Notices -/

/-- The part of the state that raising a notice leaves alone. -/
structure Vehicle where
  positions : Vector PosRec 26
  candidates : List Candidate
  trigger : Trigger
  intake : Intake
  eval : Eval
  wake : Bool

/-- The vehicle part of a state. -/
def State.vehicle (s : State) : Vehicle :=
  { positions := s.positions, candidates := s.candidates, trigger := s.trigger, intake := s.intake, eval := s.eval,
    wake := s.control.wake }

/-- A fold of operations that keep a view of the state keeps it. -/
theorem foldl_view {α β : Type} (view : State → β) (f : State → α → State) (h : ∀ s x, view (f s x) = view s)
    (l : List α) (s : State) : view (l.foldl f s) = view s := by
  induction l generalizing s with
  | nil => rfl
  | cons x xs ih => rw [List.foldl_cons, ih, h]

@[simp] theorem addWrite_vehicle (s : State) (o : Nat) (d : Word) (g : Origin) :
    (s.addWrite o d g).vehicle = s.vehicle := rfl

theorem placeNotice_vehicle (s : State) (n : Notice) : (s.placeNotice n).vehicle = s.vehicle := by
  unfold State.placeNotice
  dsimp only
  split
  · rfl
  · exact foldl_view State.vehicle (fun t (w : KeptWrite) => t.addWrite w.offset w.data .notice) (fun _ _ => rfl) _ s

@[simp] theorem park_wake (c : Control) (n : Notice) : (c.park n).wake = c.wake := by
  unfold Control.park
  split <;> rfl

@[simp] theorem raise_vehicle (s : State) (n : Notice) : (s.raise n).vehicle = s.vehicle := by
  unfold State.raise
  split
  · rfl
  · exact placeNotice_vehicle s n
  all_goals simp [State.vehicle]

@[simp] theorem notify_vehicle (s : State) (k : NoticeKind) (p : Option Pos) (t : Byte) (i : SensorId) (v : Word) :
    (s.notify k p t i v).vehicle = s.vehicle := raise_vehicle s _

@[simp] theorem alertNotice_vehicle (s : State) (n : NoticeKind) (p : Pos) (k : AlertKind) (l : Level) (v : Int) :
    (s.alertNotice n p k l v).vehicle = s.vehicle := raise_vehicle s _

@[simp] theorem raise_positions (s : State) (n : Notice) : (s.raise n).positions = s.positions :=
  congrArg Vehicle.positions (raise_vehicle s n)
@[simp] theorem raise_candidates (s : State) (n : Notice) : (s.raise n).candidates = s.candidates :=
  congrArg Vehicle.candidates (raise_vehicle s n)
@[simp] theorem raise_trigger (s : State) (n : Notice) : (s.raise n).trigger = s.trigger :=
  congrArg Vehicle.trigger (raise_vehicle s n)
@[simp] theorem raise_intake (s : State) (n : Notice) : (s.raise n).intake = s.intake :=
  congrArg Vehicle.intake (raise_vehicle s n)
@[simp] theorem raise_eval (s : State) (n : Notice) : (s.raise n).eval = s.eval :=
  congrArg Vehicle.eval (raise_vehicle s n)
@[simp] theorem raise_wake (s : State) (n : Notice) : (s.raise n).control.wake = s.control.wake :=
  congrArg Vehicle.wake (raise_vehicle s n)

@[simp] theorem notify_positions (s : State) (k : NoticeKind) (p : Option Pos) (t : Byte) (i : SensorId) (v : Word) :
    (s.notify k p t i v).positions = s.positions := raise_positions s _
@[simp] theorem notify_candidates (s : State) (k : NoticeKind) (p : Option Pos) (t : Byte) (i : SensorId) (v : Word) :
    (s.notify k p t i v).candidates = s.candidates := raise_candidates s _
@[simp] theorem notify_trigger (s : State) (k : NoticeKind) (p : Option Pos) (t : Byte) (i : SensorId) (v : Word) :
    (s.notify k p t i v).trigger = s.trigger := raise_trigger s _
@[simp] theorem notify_intake (s : State) (k : NoticeKind) (p : Option Pos) (t : Byte) (i : SensorId) (v : Word) :
    (s.notify k p t i v).intake = s.intake := raise_intake s _
@[simp] theorem notify_eval (s : State) (k : NoticeKind) (p : Option Pos) (t : Byte) (i : SensorId) (v : Word) :
    (s.notify k p t i v).eval = s.eval := raise_eval s _

@[simp] theorem posAt_raise (s : State) (n : Notice) (q : Pos) : (s.raise n).posAt q = s.posAt q := by
  simp only [State.posAt, raise_positions]
@[simp] theorem posAt_notify (s : State) (k : NoticeKind) (p : Option Pos) (t : Byte) (i : SensorId) (v : Word)
    (q : Pos) : (s.notify k p t i v).posAt q = s.posAt q := posAt_raise s _ q
@[simp] theorem posAt_alertNotice (s : State) (n : NoticeKind) (p : Pos) (k : AlertKind) (l : Level) (v : Int)
    (q : Pos) : (s.alertNotice n p k l v).posAt q = s.posAt q := posAt_raise s _ q

@[simp] theorem alertAt_raise (s : State) (n : Notice) (q : Pos) (k : AlertKind) :
    (s.raise n).alertAt q k = s.alertAt q k := by simp only [State.alertAt, posAt_raise]
@[simp] theorem alertAt_notify (s : State) (k : NoticeKind) (p : Option Pos) (t : Byte) (i : SensorId) (v : Word)
    (q : Pos) (j : AlertKind) : (s.notify k p t i v).alertAt q j = s.alertAt q j := alertAt_raise s _ q j
@[simp] theorem alertAt_alertNotice (s : State) (n : NoticeKind) (p : Pos) (k : AlertKind) (l : Level) (v : Int)
    (q : Pos) (j : AlertKind) : (s.alertNotice n p k l v).alertAt q j = s.alertAt q j := alertAt_raise s _ q j

/-! ### Alert records -/

/-- A position record but for its alert records and the SILENT condition. -/
def PosRec.core (r : PosRec) : PosRec := { r with alerts := .reset, silent := false }

/-- The tables that no change of an alert record touches. -/
structure Tables where
  core : Pos → PosRec
  candidates : List Candidate
  trigger : Trigger
  intake : Intake

/-- The tables of a state. -/
def State.tables (s : State) : Tables :=
  { core := fun p => (s.posAt p).core, candidates := s.candidates, trigger := s.trigger, intake := s.intake }

/-- The same records, lists and units mean the same tables. -/
theorem tables_of_vehicle {s t : State} (h : t.vehicle = s.vehicle) : t.tables = s.tables := by
  have hp : t.positions = s.positions := congrArg Vehicle.positions h
  have hc : t.candidates = s.candidates := congrArg Vehicle.candidates h
  have ht : t.trigger = s.trigger := congrArg Vehicle.trigger h
  have hi : t.intake = s.intake := congrArg Vehicle.intake h
  simp only [State.tables, State.posAt, hp, hc, ht, hi]

/-- One record changed in its alerts and its SILENT condition only. -/
theorem modPos_tables {s : State} {p : Pos} {f : PosRec → PosRec} (h : (f (s.posAt p)).core = (s.posAt p).core) :
    (s.modPos p f).tables = s.tables := by
  have hcore : (fun q => ((s.modPos p f).posAt q).core) = fun q => (s.posAt q).core := by
    funext q
    rw [posAt_modPos]
    split
    · next hq => rw [h, hq]
    · rfl
  simp [State.tables, hcore]

@[simp] theorem raise_tables (s : State) (n : Notice) : (s.raise n).tables = s.tables :=
  tables_of_vehicle (raise_vehicle s n)
@[simp] theorem notify_tables (s : State) (k : NoticeKind) (p : Option Pos) (t : Byte) (i : SensorId) (v : Word) :
    (s.notify k p t i v).tables = s.tables := raise_tables s _
@[simp] theorem alertNotice_tables (s : State) (n : NoticeKind) (p : Pos) (k : AlertKind) (l : Level) (v : Int) :
    (s.alertNotice n p k l v).tables = s.tables := raise_tables s _

@[simp] theorem refreshOutputs_positions (s : State) (a : Bool) : (s.refreshOutputs a).positions = s.positions := rfl
@[simp] theorem posAt_refreshOutputs (s : State) (a : Bool) (p : Pos) : (s.refreshOutputs a).posAt p = s.posAt p := rfl
@[simp] theorem refreshOutputs_tables (s : State) (a : Bool) : (s.refreshOutputs a).tables = s.tables := rfl

@[simp] theorem setAlert_tables (s : State) (p : Pos) (k : AlertKind) (r : AlertRec) (a : Bool) :
    (s.setAlert p k r a).tables = s.tables := by
  unfold State.setAlert
  rw [refreshOutputs_tables]
  exact modPos_tables rfl

/-- An alert record reads back as it was set; every other one stays. -/
theorem alertAt_setAlert (s : State) (p q : Pos) (k j : AlertKind) (r : AlertRec) (a : Bool) :
    (s.setAlert p k r a).alertAt q j = if q = p ∧ j = k then r else s.alertAt q j := by
  unfold State.setAlert State.alertAt
  rw [posAt_refreshOutputs, posAt_modPos]
  by_cases hq : q = p
  · subst hq
    by_cases hj : j = k
    · simp [hj]
    · simp [hj, Alerts.get_set_other _ _ _ _ hj]
  · simp [hq]

/-- A set alert record changes nothing else of the position records. -/
theorem posAt_setAlert (s : State) (p q : Pos) (k : AlertKind) (r : AlertRec) (a : Bool) :
    (s.setAlert p k r a).posAt q =
      if q = p then { s.posAt p with alerts := (s.posAt p).alerts.set k r } else s.posAt q := by
  unfold State.setAlert
  rw [posAt_refreshOutputs, posAt_modPos]

@[simp] theorem applyMove_tables (s : State) (p : Pos) (k : AlertKind) (m : AlertRec × AlertEvent) (v : Int) :
    (s.applyMove p k m v).tables = s.tables := by
  unfold State.applyMove
  split <;> simp

@[simp] theorem evaluate_tables (s : State) (p : Pos) (k : AlertKind) (r : EvalResult) (v : Int) :
    (s.evaluate p k r v).tables = s.tables := applyMove_tables s p k _ v

@[simp] theorem evalLow_tables (s : State) (p : Pos) (x : Sample) : (s.evalLow p x).tables = s.tables := by
  unfold State.evalLow
  split <;> simp

@[simp] theorem evalHigh_tables (s : State) (p : Pos) (x : Sample) : (s.evalHigh p x).tables = s.tables := by
  unfold State.evalHigh
  split
  · rfl
  · split <;> simp

@[simp] theorem evalHot_tables (s : State) (p : Pos) (x : Sample) : (s.evalHot p x).tables = s.tables := by
  unfold State.evalHot
  split <;> simp

@[simp] theorem evalSensor_tables (s : State) (p : Pos) (x : Sample) : (s.evalSensor p x).tables = s.tables :=
  evaluate_tables s p _ _ _

/-- MISMATCH of a sample is skipped, or it is one evaluation of the pair's outer slot (R112). -/
theorem evalMismatch_cases (s : State) (p : Pos) :
    s.evalMismatch p = s ∨ ∃ (o : Pos) (r : EvalResult) (d : Int), s.evalMismatch p = s.evaluate o .mismatch r d := by
  unfold State.evalMismatch
  split
  · split
    · split
      · exact .inr ⟨_, _, _, rfl⟩
      · exact .inl rfl
    · exact .inl rfl
  · exact .inl rfl

@[simp] theorem evalMismatch_tables (s : State) (p : Pos) : (s.evalMismatch p).tables = s.tables := by
  obtain h | ⟨o, r, d, h⟩ := evalMismatch_cases s p
  · rw [h]
  · rw [h, evaluate_tables]

@[simp] theorem evalAlertTelegram_tables (s : State) (p : Pos) : (s.evalAlertTelegram p).tables = s.tables :=
  applyMove_tables s p _ _ _

@[simp] theorem evalLeak_tables (s : State) (p : Pos) (q : Int) : (s.evalLeak p q).tables = s.tables :=
  evaluate_tables s p _ _ _

@[simp] theorem evaluateSample_tables (s : State) (p : Pos) (x : Sample) :
    (s.evaluateSample p x).tables = s.tables := by
  unfold State.evaluateSample
  dsimp only
  split <;> simp

@[simp] theorem beginSilent_tables (s : State) (p : Pos) : (s.beginSilent p).tables = s.tables := by
  have h : (s.modPos p (fun x => { x with silent := true })).tables = s.tables := modPos_tables rfl
  unfold State.beginSilent
  dsimp only
  split
  · rw [applyMove_tables, h]
  · exact h

@[simp] theorem endSilent_tables (s : State) (p : Pos) : (s.endSilent p).tables = s.tables := by
  have h : (s.modPos p (fun x => { x with silent := false })).tables = s.tables := modPos_tables rfl
  unfold State.endSilent
  dsimp only
  split
  · split
    · rw [applyMove_tables, h]
    · exact h
  · rfl

@[simp] theorem settleSilent_tables (s : State) (p : Pos) (b : BindState) :
    (s.settleSilent p b).tables = s.tables := by
  unfold State.settleSilent
  split <;> simp

@[simp] theorem withdraw_tables (s : State) (p : Pos) (k : AlertKind) : (s.withdraw p k).tables = s.tables := by
  unfold State.withdraw
  dsimp only
  split <;> simp

@[simp] theorem withdrawAll_tables (s : State) (p : Pos) : (s.withdrawAll p).tables = s.tables := by
  have h := foldl_view State.tables (fun t k => t.withdraw p k) (fun t k => withdraw_tables t p k) alertKinds s
  unfold State.withdrawAll
  exact (modPos_tables (f := fun x => { x with silent := false }) rfl).trans h

@[simp] theorem withdrawPair_tables (s : State) (p : Pos) : (s.withdrawPair p).tables = s.tables := by
  unfold State.withdrawPair
  split <;> simp

@[simp] theorem ackOne_tables (s : State) (p : Pos) (k : AlertKind) : (s.ackOne p k).tables = s.tables := by
  unfold State.ackOne
  dsimp only
  split <;> simp

@[simp] theorem ackPosition_tables (s : State) (m : Word) (p : Pos) : (s.ackPosition m p).tables = s.tables := by
  unfold State.ackPosition
  refine foldl_view State.tables _ (fun t k => ?_) _ s
  split <;> simp

/-- The fields of a record but for its alerts and SILENT, read off the same tables. -/
theorem core_of_tables {s t : State} (h : t.tables = s.tables) (p : Pos) : (t.posAt p).core = (s.posAt p).core :=
  congrFun (congrArg Tables.core h) p

end Sys2Proof.Machine
end

section
/-! What the invariants of the machine read, and the two relations that carry them through every operation. `Keeps s t`:
from s to t the outbound queue, the outputs, the fire records with the candidate list, and the bounded lists stay well
formed. `Steady s t`: every position holds what it held, with a claim that stays or goes, and no candidate joins. Both
are preorders, so an operation keeps them when its parts do. -/

namespace Sys2Proof.Machine
open Sys2Proof.Claim

/-! ### The invariants, part by part -/

/-- R127, R128: the lamp and the escalation timer show the alert records. -/
def outputsShow (lamp : Lamp) (timer : Escalation) (ps : Vector PosRec 26) (armed : Bool) : Prop :=
  (lamp = .off ↔ anyAlert ps AlertRec.standing = false) ∧
    ((∃ d e, lamp = .flash d e) ↔ anyAlert ps AlertRec.unackedAlarm = true) ∧
    (timer = .idle ↔ armed = false ∨ anyAlert ps AlertRec.unackedAlarm = false)

/-- R45, R49, R63, R66: the fire records and the candidate list with its CLAIMED flags. -/
def firesOk (rs : List FireRec) (cs : List Candidate) : Prop :=
  (rs.length ≤ 4 ∧ (rs.map FireRec.coil).Nodup ∧ (rs.map FireRec.code).Nodup ∧ ∀ r ∈ rs, r.code ≠ 0) ∧
    cs.length ≤ 32 ∧ (cs.map Candidate.id).Nodup ∧ ∀ e ∈ cs, e.claimed = rs.any (fun r => r.answeredBy e.id)

/-- The key of a telegram (R37). -/
def RecentEntry.key (e : RecentEntry) : SensorId × BitVec 4 := (e.payload.id, e.payload.seq)

/-- R37: the recent telegram list. -/
def recentOk (l : List RecentEntry) : Prop := l.length ≤ 24 ∧ (l.map RecentEntry.key).Nodup

/-- R62: one request per coil. -/
def requestsOk (q : List Request) : Prop := (q.map Request.coil).Nodup

/-- What R5 and R20 ask of one record. -/
def PosRec.consistent (used : Bool) (r : PosRec) : Prop :=
  r.id.isSome = r.state.holdsId ∧ (r.state = .vacant ↔ used = false) ∧ (r.claim.isSome = true → r.state.holdsId = true)

/-- The IDs of the candidate list. -/
def State.listed (s : State) : List SensorId := s.candidates.map Candidate.id

/-- R5, R6, R20: the position table and the candidate list, with the positions in use given. -/
structure holdingsOk (used : Pos → Bool) (s : State) : Prop where
  consistent : ∀ p, (s.posAt p).consistent (used p)
  unique : ∀ p q i, (s.posAt p).id = some i → (s.posAt q).id = some i → p = q
  unlisted : ∀ p i, (s.posAt p).id = some i → i ∉ s.listed

/-- Some alert record meets a test. -/
theorem anyAlert_iff (s : State) (f : AlertRec → Bool) :
    anyAlert s.positions f = true ↔ ∃ p k, f (s.alertAt p k) = true := by
  have hmem : ∀ k : AlertKind, k ∈ alertKinds := by intro k; cases k <;> decide
  unfold anyAlert Alerts.anyRec
  rw [List.any_eq_true]
  constructor
  · rintro ⟨r, hr, h⟩
    obtain ⟨k, -, hk⟩ := List.any_eq_true.mp h
    obtain ⟨i, hi, rfl⟩ := Vector.mem_iff_getElem.mp (Vector.mem_toList_iff.mp hr)
    exact ⟨⟨i, hi⟩, k, by simpa [State.alertAt, posAt_eq] using hk⟩
  · rintro ⟨p, k, h⟩
    refine ⟨s.posAt p, ?_, List.any_eq_true.mpr ⟨k, hmem k, h⟩⟩
    rw [posAt_eq, Vector.mem_toList_iff]
    exact Vector.getElem_mem _

/-- No alert record meets a test. -/
theorem anyAlert_eq_false_iff (s : State) (f : AlertRec → Bool) :
    anyAlert s.positions f = false ↔ ∀ p k, f (s.alertAt p k) = false := by
  rw [← Bool.not_eq_true, anyAlert_iff]
  simp

/-- R127, R128: the two invariants of the outputs are one statement about them. -/
theorem outputsShow_iff (s : State) :
    lampOk s ∧ escalationOk s ↔ outputsShow s.eval.lamp s.eval.escalation s.positions s.escalationArmed := by
  unfold lampOk escalationOk outputsShow
  simp only [anyAlert_eq_false_iff, anyAlert_iff, and_assoc]

/-- R5, R6, R20: the two invariants of the bindings are one statement about the records and the listed IDs. -/
theorem holdingsOk_iff (s : State) : bindingsOk s ∧ heldNotListed s ↔ holdingsOk (inUse s.layout) s := by
  constructor
  · rintro ⟨hb, hl⟩
    refine ⟨fun p => ⟨(hb p).1, (hb p).2.1, (hb p).2.2.1⟩, fun p q i hp hq => ?_, fun p i hp hi => ?_⟩
    · exact (hb p).2.2.2 q (by simp [hp]) (hp.trans hq.symm)
    · obtain ⟨e, he, rfl⟩ := List.mem_map.mp hi
      exact hl p e he hp
  · rintro ⟨hc, hu, hl⟩
    refine ⟨fun p => ⟨(hc p).1, (hc p).2.1, (hc p).2.2, fun q hp e => ?_⟩, fun p e he hp => ?_⟩
    · obtain ⟨i, hi⟩ := Option.isSome_iff_exists.mp hp
      exact hu p q i hi (e ▸ hi)
    · exact hl p _ hp (List.mem_map_of_mem he)

/-- R169: the bound of the queue and the places of its writes. -/
theorem queueOk_iff (q : List QEntry) : queueOk q ↔ q.length ≤ 48 ∧ (writeOffsets q).Nodup := by
  unfold writeOffsets
  rw [List.Nodup, List.pairwise_map]
  exact Iff.rfl

/-! ### The relations -/

/-- From s to t the invariants of the outbound queue, the outputs, the records and the lists stay. -/
structure Keeps (s t : State) : Prop where
  queue : queueOk s.path.queue → queueOk t.path.queue := by exact fun h => h
  outputs : outputsShow s.eval.lamp s.eval.escalation s.positions s.escalationArmed →
    outputsShow t.eval.lamp t.eval.escalation t.positions t.escalationArmed := by exact fun h => h
  fires : firesOk s.trigger.records s.candidates → firesOk t.trigger.records t.candidates := by exact fun h => h
  recent : recentOk s.intake.recent → recentOk t.intake.recent := by exact fun h => h
  requests : requestsOk s.trigger.queue → requestsOk t.trigger.queue := by exact fun h => h
  parked : s.control.parked.length ≤ 16 → t.control.parked.length ≤ 16 := by exact fun h => h
  limits : s.snoop.partialEntry.length ≤ 5 → t.snoop.partialEntry.length ≤ 5 := by exact fun h => h

theorem Keeps.refl (s : State) : Keeps s s := {}

theorem Keeps.trans {s t u : State} (h : Keeps s t) (k : Keeps t u) : Keeps s u where
  queue x := k.queue (h.queue x)
  outputs x := k.outputs (h.outputs x)
  fires x := k.fires (h.fires x)
  recent x := k.recent (h.recent x)
  requests x := k.requests (h.requests x)
  parked x := k.parked (h.parked x)
  limits x := k.limits (h.limits x)

/-- A fold of operations that keep the invariants keeps them. -/
theorem Keeps.foldl {α : Type} {f : State → α → State} (h : ∀ s x, Keeps s (f s x)) (l : List α) (s : State) :
    Keeps s (l.foldl f s) := by
  induction l generalizing s with
  | nil => exact Keeps.refl s
  | cons x xs ih => exact (h s x).trans (ih (f s x))

/-- The record u holds what r held: the same ID, in a state of the same kind, with the claim of r or none. -/
def PosRec.holdsAs (r u : PosRec) : Prop :=
  u.id = r.id ∧ u.state.holdsId = r.state.holdsId ∧ (u.state = .vacant ↔ r.state = .vacant) ∧
    (u.claim = r.claim ∨ u.claim = none)

/-- A record holds what it held when its ID, state and claim are the same. -/
theorem PosRec.holdsAs_of_same {r u : PosRec} (hi : u.id = r.id) (hs : u.state = r.state) (hc : u.claim = r.claim) :
    r.holdsAs u := ⟨hi, by rw [hs], by rw [hs], .inl hc⟩

theorem PosRec.holdsAs_refl (r : PosRec) : r.holdsAs r := PosRec.holdsAs_of_same rfl rfl rfl

theorem PosRec.holdsAs_trans {r u v : PosRec} (h : r.holdsAs u) (k : u.holdsAs v) : r.holdsAs v := by
  obtain ⟨hi, hs, hv, hc⟩ := h
  obtain ⟨ki, ks, kv, kc⟩ := k
  refine ⟨ki.trans hi, ks.trans hs, kv.trans hv, ?_⟩
  obtain kc | kc := kc
  · rw [kc]; exact hc
  · exact .inr kc

/-- A record that holds what a consistent one held is consistent. -/
theorem PosRec.consistent_of_holdsAs {used : Bool} {r u : PosRec} (h : r.holdsAs u) (hr : r.consistent used) :
    u.consistent used := by
  obtain ⟨hi, hs, hv, hc⟩ := h
  obtain ⟨ri, rv, rc⟩ := hr
  refine ⟨by rw [hi, hs, ri], hv.trans rv, fun hcl => ?_⟩
  rw [hs]
  obtain hc | hc := hc
  · exact rc (hc ▸ hcl)
  · rw [hc] at hcl; cases hcl

/-- From s to t every position but those of a set holds what it held, and no candidate joins. -/
structure SteadyBut (but : Pos → Prop) (s t : State) : Prop where
  holds : ∀ p, ¬ but p → (s.posAt p).holdsAs (t.posAt p)
  listed : t.listed ⊆ s.listed

/-- From s to t every position holds what it held, and no candidate joins. -/
abbrev Steady (s t : State) : Prop := SteadyBut (fun _ => False) s t

theorem SteadyBut.trans {but : Pos → Prop} {s t u : State} (h : SteadyBut but s t) (k : SteadyBut but t u) :
    SteadyBut but s u :=
  ⟨fun p hp => PosRec.holdsAs_trans (h.holds p hp) (k.holds p hp), fun _ hi => h.listed (k.listed hi)⟩

theorem SteadyBut.mono {but more : Pos → Prop} {s t : State} (h : SteadyBut but s t) (hm : ∀ p, but p → more p) :
    SteadyBut more s t := ⟨fun p hp => h.holds p (fun hb => hp (hm p hb)), h.listed⟩

theorem Steady.refl (s : State) : Steady s s := ⟨fun _ _ => PosRec.holdsAs_refl _, fun _ h => h⟩

/-- A fold of steady operations is steady. -/
theorem Steady.foldl {α : Type} {f : State → α → State} (h : ∀ s x, Steady s (f s x)) (l : List α) (s : State) :
    Steady s (l.foldl f s) := by
  induction l generalizing s with
  | nil => exact Steady.refl s
  | cons x xs ih => exact (h s x).trans (ih (f s x))

/-- The same tables are steady. -/
theorem Steady.of_tables {s t : State} (h : t.tables = s.tables) : Steady s t where
  holds p _ := by
    have hc := core_of_tables h p
    exact PosRec.holdsAs_of_same (congrArg PosRec.id hc :) (congrArg PosRec.state hc :) (congrArg PosRec.claim hc :)
  listed := by
    have hl : t.candidates = s.candidates := congrArg Tables.candidates h
    simp [State.listed, hl]

/-- The same records and the same candidates are steady. -/
theorem Steady.of_eq {s t : State} (hp : t.positions = s.positions) (hc : t.candidates = s.candidates) : Steady s t where
  holds p _ := by simp only [State.posAt, hp]; exact PosRec.holdsAs_refl _
  listed := by simp [State.listed, hc]

/-- One record changed to one that holds the same. -/
theorem Steady.modPos {s : State} {p : Pos} {f : PosRec → PosRec} (h : (s.posAt p).holdsAs (f (s.posAt p))) :
    Steady s (s.modPos p f) where
  holds q _ := by
    rw [posAt_modPos]
    split
    · next hq => subst hq; exact h
    · exact PosRec.holdsAs_refl _
  listed := by simp [State.listed]

/-- Every record changed to one that holds the same. -/
theorem Steady.mapPos {s : State} {f : Pos → PosRec → PosRec} (h : ∀ p, (s.posAt p).holdsAs (f p (s.posAt p))) :
    Steady s (s.mapPos f) where
  holds q _ := by rw [posAt_mapPos]; exact h q
  listed := by simp [State.listed]

/-- One record changed, whatever it becomes: every other one is steady. -/
theorem SteadyBut.modPos (s : State) (p : Pos) (f : PosRec → PosRec) : SteadyBut (· = p) s (s.modPos p f) where
  holds q hq := by rw [posAt_modPos_other s p q f hq]; exact PosRec.holdsAs_refl _
  listed := by simp [State.listed]

/-- The IDs after a change come from the records before it along an injection: R5 and R6 then need only the records. -/
theorem holdingsOk.of_injection {used used' : Pos → Bool} {s t : State} (h : holdingsOk used s) {π : Pos → Pos}
    (hπ : Function.Injective π) (hid : ∀ p i, (t.posAt p).id = some i → (s.posAt (π p)).id = some i)
    (hc : ∀ p, (t.posAt p).consistent (used' p)) (hl : t.listed ⊆ s.listed) : holdingsOk used' t where
  consistent := hc
  unique p q i hp hq := hπ (h.unique _ _ i (hid p i hp) (hid q i hq))
  unlisted p i hp hi := h.unlisted (π p) i (hid p i hp) (hl hi)

/-- A steady operation keeps the bindings. -/
theorem Steady.holdings {used : Pos → Bool} {s t : State} (k : Steady s t) (h : holdingsOk used s) :
    holdingsOk used t :=
  h.of_injection Function.injective_id (fun p _ hp => (k.holds p id).1 ▸ hp)
    (fun p => PosRec.consistent_of_holdsAs (k.holds p id) (h.consistent p)) k.listed

/-- Both relations: an operation that changes no binding. -/
structure Calm (s t : State) : Prop where
  keeps : Keeps s t
  steady : Steady s t

theorem Calm.refl (s : State) : Calm s s := ⟨Keeps.refl s, Steady.refl s⟩

theorem Calm.trans {s t u : State} (h : Calm s t) (k : Calm t u) : Calm s u :=
  ⟨h.keeps.trans k.keeps, h.steady.trans k.steady⟩

theorem Calm.foldl {α : Type} {f : State → α → State} (h : ∀ s x, Calm s (f s x)) (l : List α) (s : State) :
    Calm s (l.foldl f s) := ⟨Keeps.foldl (fun s x => (h s x).keeps) l s, Steady.foldl (fun s x => (h s x).steady) l s⟩

/-- From s to t every invariant stays, the bindings among them. -/
structure KeepsAll (s t : State) : Prop where
  keeps : Keeps s t
  bindings : holdingsOk (inUse s.layout) s → holdingsOk (inUse t.layout) t

theorem KeepsAll.refl (s : State) : KeepsAll s s := ⟨Keeps.refl s, id⟩

theorem KeepsAll.trans {s t u : State} (h : KeepsAll s t) (k : KeepsAll t u) : KeepsAll s u :=
  ⟨h.keeps.trans k.keeps, fun x => k.bindings (h.bindings x)⟩

theorem KeepsAll.foldl {α : Type} {f : State → α → State} (h : ∀ s x, KeepsAll s (f s x)) (l : List α) (s : State) :
    KeepsAll s (l.foldl f s) := by
  induction l generalizing s with
  | nil => exact KeepsAll.refl s
  | cons x xs ih => exact (h s x).trans (ih (f s x))

/-- The same base means the same layout. -/
theorem layout_of_base {s t : State} (h : t.base = s.base) : t.layout = s.layout := by
  have hs : t.snoop = s.snoop := congrArg Base.snoop h
  simp only [State.layout, State.copy, hs]

/-- A calm operation that leaves the layout keeps every invariant. -/
theorem Calm.all {s t : State} (h : Calm s t) (hl : t.layout = s.layout) : KeepsAll s t :=
  ⟨h.keeps, fun x => hl ▸ h.steady.holdings x⟩

/-- A calm operation on the vehicle side keeps every invariant. -/
theorem Calm.all_of_base {s t : State} (h : Calm s t) (hb : t.base = s.base) : KeepsAll s t :=
  h.all (layout_of_base hb)

end Sys2Proof.Machine
end

section
/-! The operations on the vehicle side keep the invariants: first the elementary changes of each block, then, in the order
of the model, the operations that are made of them. -/

namespace Sys2Proof.Machine
open Sys2Proof.Claim

/-! ### Position records (R1) -/

/-- The same alert records answer every test alike. -/
theorem anyAlert_congr {s t : State} (h : ∀ p, (t.posAt p).alerts = (s.posAt p).alerts) (f : AlertRec → Bool) :
    anyAlert t.positions f = anyAlert s.positions f := by
  rw [Bool.eq_iff_iff, anyAlert_iff, anyAlert_iff]
  simp only [State.alertAt, h]

/-- Position records changed but for their alert records. -/
theorem Keeps.positions {s : State} {ps : Vector PosRec 26}
    (h : ∀ p, (({ s with positions := ps } : State).posAt p).alerts = (s.posAt p).alerts) :
    Keeps s { s with positions := ps } where
  outputs x := by
    have hs := anyAlert_congr h AlertRec.standing
    have hu := anyAlert_congr h AlertRec.unackedAlarm
    unfold outputsShow at x ⊢
    rw [hs, hu]
    exact x

theorem Keeps.modPos {s : State} {p : Pos} {f : PosRec → PosRec}
    (h : (f (s.posAt p)).alerts = (s.posAt p).alerts) : Keeps s (s.modPos p f) :=
  Keeps.positions fun q => by
    change ((s.modPos p f).posAt q).alerts = _
    rw [posAt_modPos]
    split
    · next hq => rw [h, hq]
    · rfl

theorem Keeps.mapPos {s : State} {f : Pos → PosRec → PosRec} (h : ∀ p r, (f p r).alerts = r.alerts) :
    Keeps s (s.mapPos f) :=
  Keeps.positions fun q => by
    change ((s.mapPos f).posAt q).alerts = _
    rw [posAt_mapPos, h]

/-- One record changed in fields that are neither of its binding nor of its alerts. -/
theorem Calm.modPos {s : State} {p : Pos} {f : PosRec → PosRec} (h : (f (s.posAt p)).alerts = (s.posAt p).alerts)
    (k : (s.posAt p).holdsAs (f (s.posAt p))) : Calm s (s.modPos p f) := ⟨Keeps.modPos h, Steady.modPos k⟩

/-- Every record changed in fields that are neither of its binding nor of its alerts. -/
theorem Calm.mapPos {s : State} {f : Pos → PosRec → PosRec} (h : ∀ p r, (f p r).alerts = r.alerts)
    (k : ∀ p, (s.posAt p).holdsAs (f p (s.posAt p))) : Calm s (s.mapPos f) := ⟨Keeps.mapPos h, Steady.mapPos k⟩

/-! ### Notices (R160, R167, R183) -/

/-- R169: an admitted WRITE makes no write pending no longer. -/
theorem pendingWrite_isSome_mono (q : List QEntry) (o p : Nat) (d : Word) (g : Origin)
    (h : (pendingWrite q p).isSome = true) : (pendingWrite (queueWrite q o d g) p).isSome = true := by
  rw [pendingWrite_queueWrite]
  split
  · rfl
  · exact h

/-- R168: after an admitted WRITE, the other writes need no more new entries than before. -/
theorem newEntries_mono (q : List QEntry) (o : Nat) (d : Word) (g : Origin) (ws : List KeptWrite) :
    newEntries (queueWrite q o d g) ws ≤ newEntries q ws := by
  unfold newEntries
  refine (List.monotone_filter_right ws fun w hw => ?_).length_le
  cases h : pendingWrite q w.offset with
  | none => rfl
  | some x =>
    have hm := pendingWrite_isSome_mono q o w.offset d g (by rw [h]; rfl)
    rw [Option.isNone_iff_eq_none] at hw
    rw [hw] at hm
    cases hm

/-- R168: the writes of a notice take at most the new entries that they need. -/
theorem foldl_addWrite_length (ws : List KeptWrite) (g : Origin) (s : State) :
    (ws.foldl (fun t w => t.addWrite w.offset w.data g) s).path.queue.length ≤
      s.path.queue.length + newEntries s.path.queue ws := by
  induction ws generalizing s with
  | nil => exact Nat.le_add_right _ _
  | cons w ws ih =>
    have hq : (s.addWrite w.offset w.data g).path.queue = queueWrite s.path.queue w.offset w.data g := rfl
    have hi := ih (s.addWrite w.offset w.data g)
    have hm := newEntries_mono s.path.queue w.offset w.data g ws
    have hn : newEntries s.path.queue (w :: ws) =
        (if (pendingWrite s.path.queue w.offset).isSome then 0 else 1) + newEntries s.path.queue ws := by
      unfold newEntries
      cases h : pendingWrite s.path.queue w.offset <;> simp [h, Nat.add_comm]
    rw [List.foldl_cons]
    rw [hq, queueWrite_length] at hi
    omega

/-- R169: admitted writes leave one WRITE per offset. -/
theorem foldl_addWrite_nodup (ws : List KeptWrite) (g : Origin) (s : State)
    (h : (writeOffsets s.path.queue).Nodup) :
    (writeOffsets (ws.foldl (fun t w => t.addWrite w.offset w.data g) s).path.queue).Nodup := by
  induction ws generalizing s with
  | nil => exact h
  | cons w ws ih => exact ih _ (queueWrite_nodup _ _ _ _ h)

/-- A fold of writes leaves the control block and the snoop. -/
theorem foldl_addWrite_aside (ws : List KeptWrite) (g : Origin) (s : State) :
    (ws.foldl (fun t w => t.addWrite w.offset w.data g) s).control = s.control ∧
      (ws.foldl (fun t w => t.addWrite w.offset w.data g) s).snoop = s.snoop := by
  induction ws generalizing s with
  | nil => exact ⟨rfl, rfl⟩
  | cons w ws ih => exact ih (s.addWrite w.offset w.data g)

/-- Nothing that the invariants read changes but the outbound queue and the parked list. -/
theorem Keeps.of_vehicle {s t : State} (hv : t.vehicle = s.vehicle) (hs : t.snoop = s.snoop)
    (hq : queueOk s.path.queue → queueOk t.path.queue)
    (hp : s.control.parked.length ≤ 16 → t.control.parked.length ≤ 16) : Keeps s t := by
  have hpos : t.positions = s.positions := congrArg Vehicle.positions hv
  have hcand : t.candidates = s.candidates := congrArg Vehicle.candidates hv
  have htrig : t.trigger = s.trigger := congrArg Vehicle.trigger hv
  have hint : t.intake = s.intake := congrArg Vehicle.intake hv
  have heval : t.eval = s.eval := congrArg Vehicle.eval hv
  have harmed : t.escalationArmed = s.escalationArmed := by
    unfold State.escalationArmed State.setting State.copy
    rw [hs]
  exact {
    queue := hq
    outputs := by rw [heval, hpos, harmed]; exact id
    fires := by rw [htrig, hcand]; exact id
    recent := by rw [hint]; exact id
    requests := by rw [htrig]; exact id
    parked := hp
    limits := by rw [hs]; exact id }

theorem placeNotice_keeps (s : State) (n : Notice) : Keeps s (s.placeNotice n) := by
  refine Keeps.of_vehicle (placeNotice_vehicle s n) (congrArg Base.snoop (placeNotice_base s n)) (fun hq => ?_) ?_
  · unfold State.placeNotice
    dsimp only
    split
    · exact hq
    · next hroom =>
      rw [queueOk_iff] at hq ⊢
      obtain ⟨hlen, hnodup⟩ := hq
      have hl := foldl_addWrite_length (noticeWrites n s.notices.write) .notice s
      simp only [State.freePlaces, Config.queuePlaces] at hroom
      exact ⟨by dsimp only; omega, foldl_addWrite_nodup _ _ _ hnodup⟩
  · unfold State.placeNotice
    dsimp only
    split
    · exact id
    · dsimp only
      rw [(foldl_addWrite_aside _ _ s).1]
      exact id

/-- R160: the parked list holds at most 16 notices. -/
theorem park_length (c : Control) (n : Notice) (h : c.parked.length ≤ 16) : (c.park n).parked.length ≤ 16 := by
  unfold Control.park Config.parkedPlaces
  split
  · next hlt => simp; omega
  · next hge => simp; omega

theorem raise_keeps (s : State) (n : Notice) : Keeps s (s.raise n) := by
  unfold State.raise
  split
  · exact Keeps.refl s
  · exact placeNotice_keeps s n
  all_goals exact { parked := park_length _ n }

theorem raise_calm (s : State) (n : Notice) : Calm s (s.raise n) :=
  ⟨raise_keeps s n, Steady.of_tables (raise_tables s n)⟩

theorem notify_calm (s : State) (k : NoticeKind) (p : Option Pos) (t : Byte) (i : SensorId) (v : Word) :
    Calm s (s.notify k p t i v) := raise_calm s _

theorem alertNotice_calm (s : State) (n : NoticeKind) (p : Pos) (k : AlertKind) (l : Level) (v : Int) :
    Calm s (s.alertNotice n p k l v) := raise_calm s _

/-! ### Alert records (chapter 6) -/

/-- An unacknowledged alarm stands. -/
theorem standing_of_unackedAlarm (ps : Vector PosRec 26) (h : anyAlert ps AlertRec.unackedAlarm = true) :
    anyAlert ps AlertRec.standing = true := by
  unfold anyAlert Alerts.anyRec at h ⊢
  simp only [List.any_eq_true] at h ⊢
  obtain ⟨r, hr, k, hk, hu⟩ := h
  exact ⟨r, hr, k, hk, by simp only [AlertRec.unackedAlarm, Bool.and_eq_true] at hu; exact hu.1.1⟩

/-- R122, R127, R128: the outputs brought up to date show the alert records, whatever they showed before. -/
theorem refreshOutputs_show (s : State) (a : Bool) :
    outputsShow (s.refreshOutputs a).eval.lamp (s.refreshOutputs a).eval.escalation (s.refreshOutputs a).positions
      (s.refreshOutputs a).escalationArmed := by
  have harmed : (s.refreshOutputs a).escalationArmed = s.escalationArmed := rfl
  have hsu := standing_of_unackedAlarm s.positions
  rw [harmed]
  unfold State.refreshOutputs outputsShow Lamp.refresh Escalation.refresh
  dsimp only
  generalize anyAlert s.positions AlertRec.standing = st at *
  generalize anyAlert s.positions AlertRec.unackedAlarm = un at *
  generalize s.escalationArmed = ar
  refine ⟨?_, ?_, ?_⟩
  · cases un <;> cases st <;> cases s.eval.lamp <;> simp_all
  · cases un <;> cases st <;> cases s.eval.lamp <;> simp_all
  · cases un <;> cases ar <;> cases s.eval.escalation <;> simp

theorem refreshOutputs_keeps (s : State) (a : Bool) : Keeps s (s.refreshOutputs a) :=
  { outputs := fun _ => refreshOutputs_show s a }

theorem setAlert_keeps (s : State) (p : Pos) (k : AlertKind) (r : AlertRec) (a : Bool) :
    Keeps s (s.setAlert p k r a) := { outputs := fun _ => refreshOutputs_show _ a }

theorem setAlert_calm (s : State) (p : Pos) (k : AlertKind) (r : AlertRec) (a : Bool) :
    Calm s (s.setAlert p k r a) := ⟨setAlert_keeps s p k r a, Steady.of_tables (setAlert_tables s p k r a)⟩

theorem applyMove_calm (s : State) (p : Pos) (k : AlertKind) (m : AlertRec × AlertEvent) (v : Int) :
    Calm s (s.applyMove p k m v) := by
  unfold State.applyMove
  split
  · exact setAlert_calm ..
  all_goals exact (setAlert_calm ..).trans (alertNotice_calm ..)

theorem evaluate_calm (s : State) (p : Pos) (k : AlertKind) (r : EvalResult) (v : Int) :
    Calm s (s.evaluate p k r v) := applyMove_calm ..

theorem evalLow_calm (s : State) (p : Pos) (x : Sample) : Calm s (s.evalLow p x) := by
  unfold State.evalLow
  split
  · exact Calm.refl s
  · exact evaluate_calm ..

theorem evalHigh_calm (s : State) (p : Pos) (x : Sample) : Calm s (s.evalHigh p x) := by
  unfold State.evalHigh
  split
  · exact Calm.refl s
  · split
    · exact Calm.refl s
    · exact evaluate_calm ..

theorem evalHot_calm (s : State) (p : Pos) (x : Sample) : Calm s (s.evalHot p x) := by
  unfold State.evalHot
  split
  · exact Calm.refl s
  · exact Calm.refl s
  · exact evaluate_calm ..

theorem evalMismatch_calm (s : State) (p : Pos) : Calm s (s.evalMismatch p) := by
  obtain h | ⟨o, r, d, h⟩ := evalMismatch_cases s p
  · rw [h]; exact Calm.refl s
  · rw [h]; exact evaluate_calm ..

theorem evaluateSample_calm (s : State) (p : Pos) (x : Sample) : Calm s (s.evaluateSample p x) := by
  have h : Calm s (((((s.evalLow p x).evalHigh p x).evalHot p x).evalSensor p x).evalMismatch p) :=
    ((((evalLow_calm s p x).trans (evalHigh_calm _ p x)).trans (evalHot_calm _ p x)).trans
      (evaluate_calm ..)).trans (evalMismatch_calm _ p)
  unfold State.evaluateSample
  dsimp only
  split
  · exact h.trans (applyMove_calm ..)
  · exact h

/-- The SILENT condition belongs to no binding and is no alert record. -/
theorem modSilent_calm (s : State) (p : Pos) (b : Bool) : Calm s (s.modPos p (fun x => { x with silent := b })) :=
  Calm.modPos rfl (PosRec.holdsAs_refl _)

theorem beginSilent_calm (s : State) (p : Pos) : Calm s (s.beginSilent p) := by
  have h := modSilent_calm s p true
  unfold State.beginSilent
  dsimp only
  split
  · exact h.trans (applyMove_calm ..)
  · exact h

theorem endSilent_calm (s : State) (p : Pos) : Calm s (s.endSilent p) := by
  have h := modSilent_calm s p false
  unfold State.endSilent
  dsimp only
  split
  · split
    · exact h.trans (applyMove_calm ..)
    · exact h
  · exact Calm.refl s

theorem settleSilent_calm (s : State) (p : Pos) (b : BindState) : Calm s (s.settleSilent p b) := by
  unfold State.settleSilent
  split
  · exact endSilent_calm s p
  · exact Calm.refl s

theorem withdraw_calm (s : State) (p : Pos) (k : AlertKind) : Calm s (s.withdraw p k) := by
  unfold State.withdraw
  dsimp only
  split
  · exact (setAlert_calm ..).trans (alertNotice_calm ..)
  · exact setAlert_calm ..

theorem withdrawAll_calm (s : State) (p : Pos) : Calm s (s.withdrawAll p) := by
  have h : Calm s (alertKinds.foldl (fun t k => t.withdraw p k) s) := Calm.foldl (fun t k => withdraw_calm t p k) _ s
  unfold State.withdrawAll
  exact h.trans (modSilent_calm _ p false)

theorem withdrawPair_calm (s : State) (p : Pos) : Calm s (s.withdrawPair p) := by
  unfold State.withdrawPair
  split
  · exact withdraw_calm ..
  · exact Calm.refl s

theorem ackPosition_calm (s : State) (m : Word) (p : Pos) : Calm s (s.ackPosition m p) := by
  refine Calm.foldl (fun t k => ?_) _ s
  split
  · unfold State.ackOne
    dsimp only
    split
    · exact setAlert_calm ..
    · exact Calm.refl t
  · exact Calm.refl t

/-! ### Trigger queue, fire records, candidates (chapters 3 and 4) -/

/-- A change of the trigger unit and the candidate list after which no candidate is new. -/
theorem Calm.lists {s : State} {x : Trigger} {cs : List Candidate}
    (hf : firesOk s.trigger.records s.candidates → firesOk x.records cs)
    (hr : requestsOk s.trigger.queue → requestsOk x.queue) (hc : cs.map Candidate.id ⊆ s.listed) :
    Calm s { s with trigger := x, candidates := cs } :=
  ⟨{ fires := hf, requests := hr }, fun _ _ => PosRec.holdsAs_refl _, hc⟩

/-- R62: the queue that takes a request holds one per coil. -/
theorem takeRequest_ok (q : List Request) (r : Request) (h : requestsOk q) : requestsOk (takeRequest q r) := by
  have hmerge : ∀ x : Request, (x.merge r).coil = x.coil := by
    intro x
    unfold Request.merge
    split
    · rfl
    · split <;> rfl
  unfold takeRequest requestsOk at *
  split
  · rw [List.map_map]
    have he : (Request.coil ∘ fun x => if x.coil = r.coil then x.merge r else x) = Request.coil := by
      funext x
      simp only [Function.comp]
      split
      · exact hmerge x
      · rfl
    rw [he]
    exact h
  · next hany =>
    rw [List.map_append, List.nodup_append]
    refine ⟨h, List.nodup_singleton _, fun a ha b hb => ?_⟩
    obtain ⟨x, hx, rfl⟩ := List.mem_map.mp ha
    obtain rfl : b = r.coil := by simpa using hb
    intro he
    exact hany (List.any_eq_true.mpr ⟨x, hx, by simpa using he⟩)

theorem offer_calm (s : State) (r : Request) : Calm s (s.offer r) := by
  refine Calm.lists (x := _) (cs := s.candidates) id (fun h => ?_) (fun _ h => h)
  dsimp only
  split
  · exact takeRequest_ok _ r h
  · exact h

theorem offerEach_calm (s : State) (cs : List Coil) (u : Purpose) (t : Byte) : Calm s (s.offerEach cs u t) :=
  Calm.foldl (fun s _ => offer_calm s _) cs s

/-- A part of the queue holds one request per coil. -/
theorem requestsOk.sublist {q r : List Request} (h : requestsOk q) (k : r.Sublist q) : requestsOk r :=
  List.Nodup.sublist (k.map _) h

/-- R70: the records that stay and the candidates with the flags cleared of the IDs that only the gone ones held. -/
theorem dropRecords_firesOk (s : State) (gone : FireRec → Bool) (h : firesOk s.trigger.records s.candidates) :
    firesOk (s.dropRecords gone).trigger.records (s.dropRecords gone).candidates := by
  obtain ⟨⟨hlen, hcoil, hcode, hzero⟩, hclen, hid, hclaim⟩ := h
  have hsub : (s.trigger.records.filter (fun r => !(gone r))).Sublist s.trigger.records := List.filter_sublist
  unfold State.dropRecords
  dsimp only
  refine ⟨⟨hsub.length_le.trans hlen, hcoil.sublist (hsub.map _), hcode.sublist (hsub.map _),
    fun r hr => hzero r (hsub.subset hr)⟩, by simpa using hclen, ?_, ?_⟩
  · rw [List.map_map]
    convert hid using 2
    funext e
    simp only [Function.comp]
    split <;> rfl
  · intro e he
    obtain ⟨c, hc, rfl⟩ := List.mem_map.mp he
    have hany : s.trigger.records.any (fun r => r.answeredBy c.id) =
        (s.trigger.records.any (fun r => gone r && r.answeredBy c.id) ||
          s.trigger.records.any (fun r => !(gone r) && r.answeredBy c.id)) := by
      induction s.trigger.records with
      | nil => rfl
      | cons r rs ih =>
        simp only [List.any_cons, ih]
        cases gone r <;> cases r.answeredBy c.id <;> simp
    have hkeep : (s.trigger.records.filter (fun r => !(gone r))).any (fun r => r.answeredBy c.id) =
        s.trigger.records.any (fun r => !(gone r) && r.answeredBy c.id) := by
      rw [List.any_filter]
    have hcl := hclaim c hc
    split
    · next hgone =>
      simp only [Bool.and_eq_true, Bool.not_eq_true'] at hgone
      dsimp only
      rw [hkeep, hgone.2]
    · next hgone =>
      rw [hkeep, hcl, hany]
      simp only [Bool.and_eq_true, Bool.not_eq_true', not_and, Bool.not_eq_false] at hgone
      cases hx : s.trigger.records.any (fun r => gone r && r.answeredBy c.id) with
      | false => simp
      | true => simp [hgone hx]

theorem dropRecords_calm (s : State) (gone : FireRec → Bool) : Calm s (s.dropRecords gone) := by
  refine Calm.lists (dropRecords_firesOk s gone) id (fun i hi => ?_)
  rw [List.map_map] at hi
  obtain ⟨e, he, rfl⟩ := List.mem_map.mp hi
  refine List.mem_map.mpr ⟨e, he, ?_⟩
  simp only [Function.comp]
  split <;> rfl

/-- Fire records changed in place, with their coils, their codes and the IDs of their answers. -/
theorem mapRecords_calm (s : State) (f : FireRec → FireRec)
    (hf : ∀ r, (f r).coil = r.coil ∧ (f r).code = r.code ∧ ∀ i, (f r).answeredBy i = r.answeredBy i) :
    Calm s { s with trigger := { s.trigger with records := s.trigger.records.map f } } := by
  refine Calm.lists (cs := s.candidates) (fun h => ?_) id (fun _ h => h)
  obtain ⟨⟨hlen, hcoil, hcode, hzero⟩, hclen, hid, hclaim⟩ := h
  have hcoils : (s.trigger.records.map f).map FireRec.coil = s.trigger.records.map FireRec.coil := by
    rw [List.map_map]; exact List.map_congr_left fun r _ => (hf r).1
  have hcodes : (s.trigger.records.map f).map FireRec.code = s.trigger.records.map FireRec.code := by
    rw [List.map_map]; exact List.map_congr_left fun r _ => (hf r).2.1
  refine ⟨⟨by simpa using hlen, by rw [hcoils]; exact hcoil, by rw [hcodes]; exact hcode, fun r hr => ?_⟩, hclen, hid,
    fun e he => ?_⟩
  · obtain ⟨x, hx, rfl⟩ := List.mem_map.mp hr
    rw [(hf x).2.1]
    exact hzero x hx
  · rw [hclaim e he, List.any_map]
    congr 1
    funext r
    exact ((hf r).2.2 e.id).symm

/-- A part of the queue stays. -/
theorem Calm.queue {s : State} {q : List Request} (h : q.Sublist s.trigger.queue) :
    Calm s { s with trigger := { s.trigger with queue := q } } :=
  Calm.lists (cs := s.candidates) id (fun k => k.sublist h) (fun _ h => h)

theorem tearDown_calm (s : State) (torn : Coil → Bool) : Calm s (s.tearDown torn) :=
  (dropRecords_calm s _).trans (Calm.queue List.filter_sublist)

/-- A part of the candidate list stays. -/
theorem filterCandidates_calm (s : State) (f : Candidate → Bool) :
    Calm s { s with candidates := s.candidates.filter f } := by
  have hsub : (s.candidates.filter f).Sublist s.candidates := List.filter_sublist
  refine Calm.lists (x := s.trigger) (fun h => ?_) id (hsub.map _).subset
  obtain ⟨hrec, hlen, hid, hclaim⟩ := h
  exact ⟨hrec, hsub.length_le.trans hlen, hid.sublist (hsub.map _), fun e he => hclaim e (hsub.subset he)⟩

theorem removeCandidate_calm (s : State) (i : SensorId) : Calm s (s.removeCandidate i) := filterCandidates_calm s _
theorem ageCandidates_calm (s : State) : Calm s s.ageCandidates := filterCandidates_calm s _
theorem forgetCandidates_calm (s : State) : Calm s s.forgetCandidates := filterCandidates_calm s _

/-- Offers change the trigger queue only. -/
@[simp] theorem offer_positions (s : State) (r : Request) : (s.offer r).positions = s.positions := rfl

@[simp] theorem offerEach_positions (s : State) (cs : List Coil) (u : Purpose) (t : Byte) :
    (s.offerEach cs u t).positions = s.positions :=
  foldl_view State.positions (fun t' c => t'.offer { coil := c, purpose := u, attempts := 0, tag := t })
    (fun _ _ => rfl) cs s

@[simp] theorem announcePersistent_positions (s : State) (e : Candidate) :
    (s.announcePersistent e).positions = s.positions := by
  unfold State.announcePersistent
  dsimp only
  split <;> simp

theorem announcePersistent_calm (s : State) (e : Candidate) : Calm s (s.announcePersistent e) := by
  unfold State.announcePersistent
  dsimp only
  split
  · exact (notify_calm ..).trans (offerEach_calm ..)
  · exact notify_calm ..

/-- Entries changed in place, with their IDs and, where the IDs differ, their CLAIMED flags. -/
theorem mapCandidates_calm (s : State) (f : Candidate → Candidate) (hf : ∀ e ∈ s.candidates, (f e).id = e.id)
    (hc : s.listed.Nodup → ∀ e ∈ s.candidates, (f e).claimed = e.claimed) :
    Calm s { s with candidates := s.candidates.map f } := by
  have hid : (s.candidates.map f).map Candidate.id = s.candidates.map Candidate.id := by
    rw [List.map_map]
    exact List.map_congr_left hf
  refine Calm.lists (x := s.trigger) (fun h => ?_) id (by rw [hid]; exact fun _ h => h)
  obtain ⟨hrec, hlen, hnodup, hclaim⟩ := h
  refine ⟨hrec, by simpa using hlen, by rw [hid]; exact hnodup, fun e he => ?_⟩
  obtain ⟨c, hmem, rfl⟩ := List.mem_map.mp he
  rw [hf c hmem, hc hnodup c hmem]
  exact hclaim c hmem

/-- R48: the entry to evict is one of the list. -/
theorem oldestUnclaimed_mem {cs : List Candidate} {o : Candidate} (h : oldestUnclaimed cs = some o) : o ∈ cs := by
  induction cs generalizing o with
  | nil => cases h
  | cons e es ih =>
    unfold oldestUnclaimed at h
    cases ho : oldestUnclaimed es with
    | none =>
      simp only [ho] at h
      split at h
      · cases h
      · cases h; exact List.mem_cons_self
    | some x =>
      simp only [ho] at h
      have hx : x ∈ e :: es := List.mem_cons_of_mem e (ih ho)
      repeat' split at h
      all_goals cases h; first | exact hx | exact List.mem_cons_self

/-- R46, R48: the list with a new entry holds some of the old entries and perhaps the new one, 32 at most. -/
theorem insertCandidate_spec (cs : List Candidate) (e : Candidate) (h : cs.length ≤ 32) :
    (insertCandidate cs e).length ≤ 32 ∧
      ∃ l, l.Sublist cs ∧ (insertCandidate cs e = l ++ [e] ∨ insertCandidate cs e = l) := by
  unfold insertCandidate Config.candidatePlaces
  split
  · next hlt => exact ⟨by simp; omega, cs, List.Sublist.refl _, .inl rfl⟩
  · split
    · next o ho =>
      have hlt : (cs.filter (fun x => x.id != o.id)).length < cs.length :=
        List.length_filter_lt_length_iff_exists.mpr ⟨o, oldestUnclaimed_mem ho, by simp⟩
      exact ⟨by simp; omega, _, List.filter_sublist, .inl rfl⟩
    · exact ⟨h, cs, List.Sublist.refl _, .inr rfl⟩

/-- The entry of an ID that the list does not hold. -/
theorem not_listed_of_candidate_none {s : State} {i : SensorId} (h : s.candidate i = none) : i ∉ s.listed := by
  intro hi
  obtain ⟨e, he, rfl⟩ := List.mem_map.mp hi
  have hn := List.find?_eq_none.mp h e he
  simp at hn

/-- R46, R48, R49: a new entry with its CLAIMED flag. -/
theorem insertCandidate_firesOk {s : State} {e : Candidate} (hc : s.candidate e.id = none)
    (he : e.claimed = s.answered e.id) (h : firesOk s.trigger.records s.candidates) :
    firesOk s.trigger.records (insertCandidate s.candidates e) := by
  obtain ⟨hrec, hlen, hid, hclaim⟩ := h
  obtain ⟨hlen', l, hl, heq⟩ := insertCandidate_spec s.candidates e hlen
  have hnew : e.id ∉ l.map Candidate.id := fun hi => not_listed_of_candidate_none hc ((hl.map _).subset hi)
  have hnodup : (l.map Candidate.id).Nodup := hid.sublist (hl.map _)
  refine ⟨hrec, hlen', ?_, ?_⟩
  · obtain heq | heq := heq
    · rw [heq, List.map_append, List.nodup_append]
      exact ⟨hnodup, List.nodup_singleton _, fun a ha b hb => by
        obtain rfl : b = e.id := by simpa using hb
        rintro rfl
        exact hnew ha⟩
    · rw [heq]; exact hnodup
  · intro c hmem
    have hc' : c ∈ l ∨ c = e := by
      obtain heq | heq := heq <;> rw [heq] at hmem
      · simpa using hmem
      · exact .inl hmem
    obtain hcl | rfl := hc'
    · exact hclaim c (hl.subset hcl)
    · exact he

/-- R47, R51, R52: the update and the judgements of an entry leave its ID and its CLAIMED flag. -/
theorem judged_same (e : Candidate) (n m : Nat) :
    (e.judged n m).id = e.id ∧ (e.judged n m).claimed = e.claimed := by
  unfold Candidate.judged
  split
  · exact ⟨rfl, rfl⟩
  · split <;> exact ⟨rfl, rfl⟩

/-- R46 to R52: the list receives a telegram: the invariants of the lists stay, and no ID joins but the telegram's. -/
theorem receiveCandidate_keeps (s : State) (t : RecentEntry) :
    Keeps s (s.receiveCandidate t) ∧ (∀ p, (s.receiveCandidate t).posAt p = s.posAt p) ∧
      ∀ i ∈ (s.receiveCandidate t).listed, i ∈ s.listed ∨ i = t.payload.id := by
  unfold State.receiveCandidate
  split
  · next hc =>
    refine ⟨{ fires := insertCandidate_firesOk hc rfl }, fun _ => rfl, fun i hi => ?_⟩
    have hsub : insertCandidate s.candidates (newCandidate t (s.answered t.payload.id)) ⊆
        newCandidate t (s.answered t.payload.id) :: s.candidates := by
      unfold insertCandidate
      repeat' split
      all_goals intro x hx; simp at hx ⊢; tauto
    obtain ⟨e, he, rfl⟩ := List.mem_map.mp hi
    obtain rfl | he := List.mem_cons.mp (hsub he)
    · exact .inr rfl
    · exact .inl (List.mem_map_of_mem he)
  · next e hc =>
    have hu := judged_same (e.update t) (s.setting .rollingThreshold) (s.setting .persistSpan)
    have hmem : e ∈ s.candidates := List.mem_of_find?_eq_some hc
    have hmap : Calm s { s with candidates := s.candidates.map (fun x => if x.id = e.id then
        (e.update t).judged (s.setting .rollingThreshold) (s.setting .persistSpan) else x) } := by
      refine mapCandidates_calm s _ (fun x _ => ?_) (fun hnodup x hx => ?_)
      · split
        · next hx => rw [hu.1]; exact hx.symm
        · rfl
      · split
        · next hid =>
          obtain rfl := List.inj_on_of_nodup_map hnodup hx hmem hid
          exact hu.2
        · rfl
    dsimp only
    split
    · have hall := hmap.trans (announcePersistent_calm _
        ((e.update t).judged (s.setting .rollingThreshold) (s.setting .persistSpan)))
      refine ⟨hall.keeps, fun p => ?_, fun i hi => .inl (hall.steady.listed hi)⟩
      simp only [State.posAt, announcePersistent_positions]
    · exact ⟨hmap.keeps, fun _ => rfl, fun i hi => .inl (hmap.steady.listed hi)⟩

end Sys2Proof.Machine
end

section
/-! What the operations of the position table do to the records (chapter 1): the withdrawals, the recheck flag with its
claims, and the two changes of an ID, `giveUp` and `takeId`. Each is said once, of every position, as an equation about
the record but for its alerts (`PosRec.core`); the exchange, the commands and the classification are read off these. -/

namespace Sys2Proof.Machine

/-! ### Lists and units that a change of a record leaves alone -/

/-- The candidate list, the trigger unit and the intake unit. -/
structure Aside where
  candidates : List Candidate
  trigger : Trigger
  intake : Intake

/-- The lists and units of a state. -/
def State.aside (s : State) : Aside := { candidates := s.candidates, trigger := s.trigger, intake := s.intake }

theorem aside_of_tables {s t : State} (h : t.tables = s.tables) : t.aside = s.aside := by
  have hc : t.candidates = s.candidates := congrArg Tables.candidates h
  have ht : t.trigger = s.trigger := congrArg Tables.trigger h
  have hi : t.intake = s.intake := congrArg Tables.intake h
  simp only [State.aside, hc, ht, hi]

theorem candidates_of_aside {s t : State} (h : t.aside = s.aside) : t.candidates = s.candidates :=
  congrArg Aside.candidates h
theorem trigger_of_aside {s t : State} (h : t.aside = s.aside) : t.trigger = s.trigger := congrArg Aside.trigger h
theorem intake_of_aside {s t : State} (h : t.aside = s.aside) : t.intake = s.intake := congrArg Aside.intake h

@[simp] theorem modPos_aside (s : State) (p : Pos) (f : PosRec → PosRec) : (s.modPos p f).aside = s.aside := rfl
@[simp] theorem mapPos_aside (s : State) (f : Pos → PosRec → PosRec) : (s.mapPos f).aside = s.aside := rfl
@[simp] theorem notify_aside (s : State) (k : NoticeKind) (p : Option Pos) (t : Byte) (i : SensorId) (v : Word) :
    (s.notify k p t i v).aside = s.aside := aside_of_tables (by simp)
@[simp] theorem withdrawAll_aside (s : State) (p : Pos) : (s.withdrawAll p).aside = s.aside :=
  aside_of_tables (by simp)
@[simp] theorem withdraw_aside (s : State) (p : Pos) (k : AlertKind) : (s.withdraw p k).aside = s.aside :=
  aside_of_tables (by simp)
@[simp] theorem withdrawPair_aside (s : State) (p : Pos) : (s.withdrawPair p).aside = s.aside :=
  aside_of_tables (by simp)
@[simp] theorem settleSilent_aside (s : State) (p : Pos) (b : BindState) : (s.settleSilent p b).aside = s.aside :=
  aside_of_tables (by simp)

/-! ### Withdrawals (R9) -/

/-- R9: a withdrawn record is CLEAR; every other alert record stays. -/
theorem alertAt_withdraw (s : State) (p q : Pos) (k j : AlertKind) :
    (s.withdraw p k).alertAt q j = if q = p ∧ j = k then (s.alertAt p k).cleared else s.alertAt q j := by
  unfold State.withdraw
  dsimp only
  split
  · rw [alertAt_alertNotice, alertAt_setAlert]
  · rw [alertAt_setAlert]

/-- A change of the SILENT condition changes no alert record. -/
theorem alertAt_modPos_same {s : State} {p : Pos} {f : PosRec → PosRec}
    (h : (f (s.posAt p)).alerts = (s.posAt p).alerts) (q : Pos) (k : AlertKind) :
    (s.modPos p f).alertAt q k = s.alertAt q k := by
  unfold State.alertAt
  rw [posAt_modPos]
  split
  · next hq => rw [h, hq]
  · rfl

/-- The withdrawals of a list of kinds. -/
theorem alertAt_foldl_withdraw (l : List AlertKind) (s : State) (p q : Pos) (j : AlertKind) :
    (l.foldl (fun t k => t.withdraw p k) s).alertAt q j =
      if q = p ∧ j ∈ l then (s.alertAt p j).cleared else s.alertAt q j := by
  induction l generalizing s with
  | nil => simp
  | cons k ks ih =>
    rw [List.foldl_cons, ih, alertAt_withdraw, alertAt_withdraw]
    by_cases hq : q = p
    · by_cases hj : j = k
      · subst hj; subst hq
        by_cases hm : j ∈ ks <;> simp [hm, AlertRec.cleared]
      · simp [hq, hj]
    · simp [hq]

/-- R9: every alert record of the position is CLEAR; those of every other position stay. -/
theorem alertAt_withdrawAll (s : State) (p q : Pos) (j : AlertKind) :
    (s.withdrawAll p).alertAt q j = if q = p then (s.alertAt p j).cleared else s.alertAt q j := by
  have hall : j ∈ alertKinds := by cases j <;> decide
  unfold State.withdrawAll
  rw [alertAt_modPos_same (f := fun x => { x with silent := false }) rfl, alertAt_foldl_withdraw]
  simp [hall]

/-! ### The recheck flag and the claims (R21) -/

/-- R21: what a change of the position p with a cause leaves of a claim. -/
def State.claimAfter (s : State) (p : Pos) (cause : Cause) (claim : Option SensorId) : Option SensorId :=
  if (s.posAt p).recheck = true ∧ cause ≠ .classification ∧ claim = (s.posAt p).id then none else claim

/-- A claim stays or goes. -/
theorem claimAfter_cases (s : State) (p : Pos) (c : Cause) (x : Option SensorId) :
    s.claimAfter p c x = x ∨ s.claimAfter p c x = none := by
  unfold State.claimAfter
  split
  · exact .inr rfl
  · exact .inl rfl

/-- R21: a classification clears no claim with the flag. -/
@[simp] theorem claimAfter_classification (s : State) (p : Pos) (x : Option SensorId) :
    s.claimAfter p .classification x = x := by
  simp [State.claimAfter]

/-- R21: the flag of the position goes, and with it the claims that name its ID. -/
theorem posAt_clearRecheck (s : State) (p q : Pos) (c : Cause) :
    (s.clearRecheck p c).posAt q =
      { s.posAt q with
        recheck := if q = p then false else (s.posAt q).recheck
        claim := s.claimAfter p c (s.posAt q).claim } := by
  have hflag : (s.modPos p (fun x => { x with recheck := false })).posAt q =
      { s.posAt q with recheck := if q = p then false else (s.posAt q).recheck } := by
    rw [posAt_modPos]
    split
    · next hq => rw [hq]
    · rfl
  unfold State.clearRecheck State.claimAfter
  dsimp only
  by_cases hr : (s.posAt p).recheck = true ∧ c ≠ .classification
  · rw [if_pos hr]
    cases hid : (s.posAt p).id with
    | none =>
      simp only [hr.1, true_and, hr.2, ne_eq, not_false_eq_true]
      rw [hflag]
      cases hc : (s.posAt q).claim <;> simp [hc]
    | some id =>
      simp only [State.clearClaims, posAt_mapPos, hflag, hr.1, true_and, hr.2, ne_eq, not_false_eq_true]
  · have hn : ¬ ((s.posAt p).recheck = true ∧ c ≠ .classification ∧ (s.posAt q).claim = (s.posAt p).id) := by tauto
    rw [if_neg hr, if_neg hn, hflag]

@[simp] theorem clearRecheck_aside (s : State) (p : Pos) (c : Cause) : (s.clearRecheck p c).aside = s.aside := by
  unfold State.clearRecheck State.clearClaims
  dsimp only
  repeat' split
  all_goals rfl

/-- R9: the core of a record after a withdrawal is the core before. -/
theorem core_withdraw_pair_all (s : State) (p q : Pos) :
    (((s.withdrawAll p).withdrawPair p).posAt q).core = (s.posAt q).core :=
  core_of_tables (by simp) q

/-- The claims that a change clears are read off the records but for their alerts. -/
theorem claimAfter_of_tables {s t : State} (h : t.tables = s.tables) (p : Pos) (c : Cause) :
    t.claimAfter p c = s.claimAfter p c := by
  have hcore := core_of_tables h p
  have hr : (t.posAt p).recheck = (s.posAt p).recheck := (congrArg PosRec.recheck hcore :)
  have hi : (t.posAt p).id = (s.posAt p).id := (congrArg PosRec.id hcore :)
  funext x
  simp only [State.claimAfter, hr, hi]

/-- What precedes a change of an ID (R8, R9, R21): the withdrawals, then the recheck flag. -/
theorem core_beforeChange (s : State) (p q : Pos) (c : Cause) :
    ((((s.withdrawAll p).withdrawPair p).clearRecheck p c).posAt q).core =
      { (s.posAt q).core with
        recheck := if q = p then false else (s.posAt q).recheck
        claim := s.claimAfter p c (s.posAt q).claim } := by
  have ht : ((s.withdrawAll p).withdrawPair p).tables = s.tables := by simp
  have hcore := core_withdraw_pair_all s p q
  have hr : (((s.withdrawAll p).withdrawPair p).posAt q).recheck = (s.posAt q).recheck := (congrArg PosRec.recheck hcore :)
  have hc : (((s.withdrawAll p).withdrawPair p).posAt q).claim = (s.posAt q).claim := (congrArg PosRec.claim hcore :)
  rw [posAt_clearRecheck, claimAfter_of_tables ht, hr, hc, ← hcore]
  rfl

/-! ### The ID given up (R5, R7, R8) -/

/-- R5, R7, R8: a record that has given up its ID, but for its alerts. -/
def PosRec.gaveUp (r : PosRec) (b : BindState) : PosRec :=
  { r.core.emptied.noArrival with state := b, id := none, epoch := r.epoch + 1, recheck := false }

/-- R21: a record of another position after a change of p: its claim stays or goes. -/
def State.besides (s : State) (p q : Pos) (c : Cause) : PosRec :=
  { (s.posAt q).core with claim := s.claimAfter p c (s.posAt q).claim }

theorem core_giveUp_same (s : State) (p : Pos) (b : BindState) (c : Cause) :
    ((s.giveUp p b c).posAt p).core = (s.posAt p).gaveUp b := by
  have h := core_beforeChange s p p c
  unfold State.giveUp
  dsimp only
  rw [posAt_modPos_same]
  generalize (((s.withdrawAll p).withdrawPair p).clearRecheck p c).posAt p = r at h
  simp only [PosRec.core, PosRec.mk.injEq] at h
  obtain ⟨-, -, he, -, -, -, -, -, -, -, -, -, -, -, -, hr, -⟩ := h
  simp [PosRec.gaveUp, PosRec.emptied, PosRec.noArrival, PosRec.core, he, hr]

theorem core_giveUp_other (s : State) {p q : Pos} (b : BindState) (c : Cause) (h : q ≠ p) :
    ((s.giveUp p b c).posAt q).core = s.besides p q c := by
  unfold State.giveUp
  dsimp only
  rw [posAt_modPos_other _ _ _ _ h, core_beforeChange, if_neg h]
  rfl

@[simp] theorem giveUp_aside (s : State) (p : Pos) (b : BindState) (c : Cause) :
    (s.giveUp p b c).aside = s.aside := by simp [State.giveUp]

/-! ### The ID taken (R5 to R8, R54, R91) -/

/-- R91: the start of a binding fills the arrival fields of the record and leaves its other fields. -/
theorem posAt_startBinding (s : State) (p q : Pos) (h : Option (Nat × Bool)) :
    (s.startBinding p h).posAt q =
      if q = p then
        { (s.posAt p).noArrival with
          handedMotion := h.map Prod.snd
          interval := ((s.startBinding p h).posAt p).interval
          deadline := if s.control.op = .run then some s.now else none }
      else s.posAt q := by
  by_cases hq : q = p
  · subst hq
    simp only [State.startBinding, State.arm, posAt_modPos_same, modPos_control, modPos_now, ↓reduceIte]
    rfl
  · simp only [State.startBinding, State.arm, posAt_modPos_other _ _ _ _ hq, hq, ↓reduceIte]

@[simp] theorem startBinding_aside (s : State) (p : Pos) (h : Option (Nat × Bool)) :
    (s.startBinding p h).aside = s.aside := rfl

/-- R5 to R8, R91: a record that has taken an ID, but for its alerts, with the interval and the motion flag that its binding
starts with. -/
def PosRec.tookUp (r : PosRec) (i : SensorId) (interval : Option Nat) (motion : Option Bool) (deadline : Option Time) :
    PosRec :=
  { r.core.emptied.noArrival with
    state := .bound, id := some i, epoch := r.epoch + 1, recheck := false, interval := interval,
    handedMotion := motion, deadline := deadline }

/-- The state before the record of a taken ID is written. -/
theorem core_beforeTake (s : State) (p q : Pos) (i : SensorId) (c : Cause) :
    (((((s.removeCandidate i).withdrawAll p).withdrawPair p).clearRecheck p c).posAt q).core =
      { (s.posAt q).core with
        recheck := if q = p then false else (s.posAt q).recheck
        claim := s.claimAfter p c (s.posAt q).claim } := core_beforeChange (s.removeCandidate i) p q c

theorem core_takeId_same (s : State) (p : Pos) (i : SensorId) (c : Cause) :
    ((s.takeId p i c).posAt p).core =
      (s.posAt p).tookUp i ((s.takeId p i c).posAt p).interval ((s.handoverOf i).map Prod.snd)
        (if s.control.op = .run then some s.now else none) := by
  have h := core_beforeTake s p p i c
  have hb : ((((s.removeCandidate i).withdrawAll p).withdrawPair p).clearRecheck p c).base = s.base := by simp
  have hop := congrArg Base.op hb
  have hnow := congrArg Base.now hb
  simp only [State.base] at hop hnow
  unfold State.takeId
  dsimp only
  rw [posAt_startBinding, if_pos rfl, posAt_modPos_same, modPos_control, modPos_now, hop, hnow]
  generalize ((((s.removeCandidate i).withdrawAll p).withdrawPair p).clearRecheck p c).posAt p = r at h
  simp only [PosRec.core, PosRec.mk.injEq] at h
  obtain ⟨-, -, he, -, -, -, -, -, -, -, -, -, -, -, -, hr, -⟩ := h
  simp [PosRec.tookUp, PosRec.emptied, PosRec.noArrival, PosRec.core, he, hr]

theorem core_takeId_other (s : State) {p q : Pos} (i : SensorId) (c : Cause) (h : q ≠ p) :
    ((s.takeId p i c).posAt q).core = s.besides p q c := by
  unfold State.takeId
  dsimp only
  rw [posAt_startBinding, if_neg h, posAt_modPos_other _ _ _ _ h, core_beforeTake, if_neg h]
  rfl

/-- R54: the ID leaves the candidate list; the trigger unit and the intake unit stay. -/
theorem takeId_aside (s : State) (p : Pos) (i : SensorId) (c : Cause) :
    (s.takeId p i c).aside = (s.removeCandidate i).aside := by simp [State.takeId]

end Sys2Proof.Machine
end

section
/-! The arrival tracker and the position table keep the invariants (chapters 1 and 5). The tracker changes no binding; the
changes of an ID are followed through the IDs that the records hold. -/

namespace Sys2Proof.Machine
open Sys2Proof.Claim

/-! ### States that hold an ID (R5) -/

/-- A position that holds an ID is not VACANT. -/
theorem BindState.ne_vacant_of_holdsId {b : BindState} (h : b.holdsId = true) : b ≠ .vacant := by
  rintro rfl
  cases h

/-- A record that stays in the four states of R5 holds what it held. -/
theorem PosRec.holdsAs_of_holdsId {r u : PosRec} (hr : r.state.holdsId = true) (hu : u.state.holdsId = true)
    (hi : u.id = r.id) (hc : u.claim = r.claim ∨ u.claim = none) : r.holdsAs u :=
  ⟨hi, hu.trans hr.symm, iff_of_false (BindState.ne_vacant_of_holdsId hu) (BindState.ne_vacant_of_holdsId hr), hc⟩

/-- A record that stays UNLEARNED or LOCATING holds nothing. -/
theorem PosRec.holdsAs_of_seeking {r u : PosRec} (hr : r.state = .unlearned ∨ r.state = .locating)
    (hu : u.state = .unlearned ∨ u.state = .locating) (hi : u.id = r.id) (hc : u.claim = r.claim ∨ u.claim = none) :
    r.holdsAs u := by
  refine ⟨hi, ?_, ?_, hc⟩ <;> obtain hr | hr := hr <;> obtain hu | hu := hu <;> simp [hr, hu, BindState.holdsId]

/-- The state of a record is read off its core. -/
theorem state_of_tables {s t : State} (h : t.tables = s.tables) (p : Pos) : (t.posAt p).state = (s.posAt p).state :=
  (congrArg PosRec.state (core_of_tables h p) :)

/-- The ID of a record is read off its core. -/
theorem id_of_tables {s t : State} (h : t.tables = s.tables) (p : Pos) : (t.posAt p).id = (s.posAt p).id :=
  (congrArg PosRec.id (core_of_tables h p) :)

/-! ### The arrival tracker (chapter 5) -/

theorem locateSilent_calm (s : State) (p : Pos) : Calm s (s.locateSilent p) := by
  unfold State.locateSilent
  split
  · split
    · exact offer_calm ..
    · exact Calm.refl s
  · exact Calm.refl s

/-- The deadline belongs to no binding and is no alert record. -/
theorem modDeadline_calm (s : State) (p : Pos) (x : Option Time) :
    Calm s (s.modPos p (fun r => { r with deadline := x })) := Calm.modPos rfl (PosRec.holdsAs_refl _)

/-- A state of the four of R5 for another of the four. -/
theorem modState_calm {s : State} {p : Pos} {b : BindState} (h : (s.posAt p).state.holdsId = true)
    (hb : b.holdsId = true) : Calm s (s.modPos p (fun r => { r with state := b })) :=
  Calm.modPos rfl (PosRec.holdsAs_of_holdsId h hb rfl (.inl rfl))

theorem expire_calm (s : State) (p : Pos) : Calm s (s.expire p) := by
  have h := modDeadline_calm s p none
  unfold State.expire
  dsimp only
  split
  · next hb =>
    have hs := modState_calm (b := .suspect) (by rw [hb]; rfl) rfl
    exact h.trans (hs.trans ((beginSilent_calm _ p).trans (locateSilent_calm _ p)))
  · exact h

theorem expireIfReached_calm (s : State) (p : Pos) : Calm s (s.expireIfReached p) := by
  unfold State.expireIfReached
  split
  · exact expire_calm s p
  · exact Calm.refl s

/-- The interval belongs to no binding and is no alert record. -/
theorem modInterval_calm (s : State) (p : Pos) (x : Option Nat) :
    Calm s (s.modPos p (fun r => { r with interval := x })) := Calm.modPos rfl (PosRec.holdsAs_refl _)

theorem setInterval_calm (s : State) (p : Pos) (e : Nat) : Calm s (s.setInterval p e) := by
  unfold State.setInterval
  split
  · exact Calm.refl s
  · exact (modInterval_calm s p _).trans (expireIfReached_calm _ p)

theorem clampInterval_calm (s : State) (p : Pos) : Calm s (s.clampInterval p) := by
  unfold State.clampInterval
  split
  · exact setInterval_calm ..
  · exact Calm.refl s

theorem clampAll_calm (s : State) : Calm s s.clampAll := Calm.foldl clampInterval_calm _ s

theorem recomputeDeadlines_calm (s : State) : Calm s s.recomputeDeadlines := Calm.foldl expireIfReached_calm _ s

theorem arm_calm (s : State) (p : Pos) (b : Time) : Calm s (s.arm p b) := modDeadline_calm s p _

theorem startBinding_calm (s : State) (p : Pos) (h : Option (Nat × Bool)) : Calm s (s.startBinding p h) := by
  have hf : Calm s (s.modPos p (fun r => { r.noArrival with handedMotion := h.map Prod.snd })) :=
    Calm.modPos rfl (PosRec.holdsAs_refl _)
  exact hf.trans ((modInterval_calm _ p _).trans (arm_calm _ p _))

/-- The drift count belongs to no binding and is no alert record. -/
theorem modDrift_calm (s : State) (p : Pos) (d : Int) : Calm s (s.modPos p (fun r => { r with drift := d })) :=
  Calm.modPos rfl (PosRec.holdsAs_refl _)

theorem gapTest_calm (s : State) (p : Pos) (a : Time) : Calm s (s.gapTest p a) := by
  unfold State.gapTest
  split
  · dsimp only
    split
    · unfold State.takeInterval
      dsimp only
      split
      · exact (modDrift_calm s p 0).trans (setInterval_calm ..)
      · split
        · exact (modDrift_calm s p 0).trans (setInterval_calm ..)
        · exact modDrift_calm s p _
    · exact Calm.modPos rfl (PosRec.holdsAs_refl _)
  · exact Calm.refl s

/-- R16, R97: a SUSPECT position becomes BOUND. -/
theorem suspectToBound_calm (s : State) (p : Pos) :
    Calm s (s.modPos p (fun r => { r with state := if r.state = .suspect then .bound else r.state })) := by
  refine Calm.modPos rfl ?_
  by_cases h : (s.posAt p).state = .suspect
  · exact PosRec.holdsAs_of_holdsId (by rw [h]; rfl) (by simp [h, BindState.holdsId]) rfl (.inl rfl)
  · exact PosRec.holdsAs_of_same rfl (by simp [h]) rfl

theorem track_calm (s : State) (p : Pos) (k : TelegramKind) (a : Time) : Calm s (s.track p k a) := by
  have hclamp := clampInterval_calm s p
  have href (u : State) : Calm u (u.modPos p (fun r => { r with reference := some a })) :=
    Calm.modPos rfl (PosRec.holdsAs_refl _)
  have hgap (u : State) : Calm u (if u.control.op = .run ∧ k.routine = true then
      (u.gapTest p a).modPos p (fun r => { r with reference := some a }) else u) := by
    split
    · exact (gapTest_calm u p a).trans (href _)
    · exact Calm.refl u
  have harm (u : State) : Calm u (if u.control.op = .run then u.arm p a else u) := by
    split
    · exact arm_calm u p a
    · exact Calm.refl u
  exact hclamp.trans ((hgap _).trans ((harm _).trans ((suspectToBound_calm _ p).trans (endSilent_calm _ p))))

theorem dropDrifts_calm (s : State) : Calm s s.dropDrifts :=
  Calm.mapPos (fun _ _ => rfl) (fun _ => PosRec.holdsAs_refl _)

theorem cancelDeadlines_calm (s : State) : Calm s s.cancelDeadlines :=
  Calm.mapPos (fun _ _ => rfl) (fun _ => PosRec.holdsAs_refl _)

theorem armAll_calm (s : State) : Calm s s.armAll :=
  Calm.mapPos (fun _ _ => rfl) (fun _ => PosRec.holdsAs_refl _)

/-! ### The recheck flag and the entry into a state (R9, R21) -/

theorem clearClaims_calm (s : State) (i : SensorId) : Calm s (s.clearClaims i) := by
  refine Calm.mapPos (fun _ _ => rfl) (fun p => ⟨rfl, rfl, Iff.rfl, ?_⟩)
  by_cases h : (s.posAt p).claim = some i <;> simp [h]

theorem clearRecheck_calm (s : State) (p : Pos) (c : Cause) : Calm s (s.clearRecheck p c) := by
  have h : Calm s (s.modPos p (fun x => { x with recheck := false })) := Calm.modPos rfl (PosRec.holdsAs_refl _)
  unfold State.clearRecheck
  dsimp only
  split
  · split
    · exact h.trans (clearClaims_calm _ _)
    · exact h
  · exact h

theorem enter_calm {s : State} {p : Pos} {b : BindState} (h : (s.posAt p).state.holdsId = true)
    (hb : b.holdsId = true) : Calm s (s.enter p b) := by
  unfold State.enter
  dsimp only
  split
  · exact modState_calm h hb
  · refine (withdrawAll_calm s p).trans (modState_calm ?_ hb)
    rw [state_of_tables (withdrawAll_tables s p)]
    exact h

/-! ### The changes of an ID (R5 to R8, R54) -/

theorem giveUp_keeps (s : State) (p : Pos) (b : BindState) (c : Cause) : Keeps s (s.giveUp p b c) := by
  have h := (withdrawAll_calm s p).trans ((withdrawPair_calm _ p).trans (clearRecheck_calm _ p c))
  have hm (u : State) : Keeps u (u.modPos p (fun r =>
      { r.emptied.noArrival with state := b, id := none, epoch := r.epoch + 1 })) := Keeps.modPos rfl
  exact h.keeps.trans (hm _)

theorem takeId_keeps (s : State) (p : Pos) (i : SensorId) (c : Cause) : Keeps s (s.takeId p i c) := by
  have h := (removeCandidate_calm s i).trans ((withdrawAll_calm _ p).trans ((withdrawPair_calm _ p).trans
    (clearRecheck_calm _ p c)))
  have hm (u : State) : Keeps u (u.modPos p (fun r => { r.emptied with state := .bound, id := some i, epoch := r.epoch + 1 })) :=
    Keeps.modPos rfl
  exact h.keeps.trans ((hm _).trans (startBinding_calm _ p _).keeps)

/-- A record besides a changed one holds what it held. -/
theorem holdsAs_besides (s : State) (p q : Pos) (c : Cause) : (s.posAt q).holdsAs (s.besides p q c) :=
  ⟨rfl, rfl, Iff.rfl, claimAfter_cases s p c _⟩

/-- A record holds what its core holds. -/
theorem PosRec.holdsAs_of_core {r u v : PosRec} (h : r.holdsAs v) (hc : u.core = v.core) : r.holdsAs u :=
  PosRec.holdsAs_trans h (PosRec.holdsAs_of_same (congrArg PosRec.id hc :) (congrArg PosRec.state hc :)
    (congrArg PosRec.claim hc :))

theorem listed_of_aside {s t : State} (h : t.aside = s.aside) : t.listed = s.listed := by
  unfold State.listed
  rw [candidates_of_aside h]

theorem giveUp_steadyBut (s : State) (p : Pos) (b : BindState) (c : Cause) :
    SteadyBut (· = p) s (s.giveUp p b c) where
  holds q hq := PosRec.holdsAs_of_core (holdsAs_besides s p q c) (core_giveUp_other s b c hq)
  listed := by rw [listed_of_aside (giveUp_aside s p b c)]; exact fun _ h => h

theorem takeId_steadyBut (s : State) (p : Pos) (i : SensorId) (c : Cause) :
    SteadyBut (· = p) s (s.takeId p i c) where
  holds q hq := PosRec.holdsAs_of_core (holdsAs_besides s p q c) (core_takeId_other s i c hq)
  listed := by
    rw [listed_of_aside (takeId_aside s p i c)]
    exact (removeCandidate_calm s i).steady.listed

@[simp] theorem giveUp_id (s : State) (p : Pos) (b : BindState) (c : Cause) : ((s.giveUp p b c).posAt p).id = none :=
  (congrArg PosRec.id (core_giveUp_same s p b c) :)
@[simp] theorem giveUp_state (s : State) (p : Pos) (b : BindState) (c : Cause) :
    ((s.giveUp p b c).posAt p).state = b := (congrArg PosRec.state (core_giveUp_same s p b c) :)
@[simp] theorem giveUp_claim (s : State) (p : Pos) (b : BindState) (c : Cause) :
    ((s.giveUp p b c).posAt p).claim = none := (congrArg PosRec.claim (core_giveUp_same s p b c) :)
@[simp] theorem takeId_id (s : State) (p : Pos) (i : SensorId) (c : Cause) :
    ((s.takeId p i c).posAt p).id = some i := (congrArg PosRec.id (core_takeId_same s p i c) :)
@[simp] theorem takeId_state (s : State) (p : Pos) (i : SensorId) (c : Cause) :
    ((s.takeId p i c).posAt p).state = .bound := (congrArg PosRec.state (core_takeId_same s p i c) :)
@[simp] theorem takeId_claim (s : State) (p : Pos) (i : SensorId) (c : Cause) :
    ((s.takeId p i c).posAt p).claim = none := (congrArg PosRec.claim (core_takeId_same s p i c) :)

theorem giveUp_id_other (s : State) {p q : Pos} (b : BindState) (c : Cause) (h : q ≠ p) :
    ((s.giveUp p b c).posAt q).id = (s.posAt q).id := ((giveUp_steadyBut s p b c).holds q h).1
theorem takeId_id_other (s : State) {p q : Pos} (i : SensorId) (c : Cause) (h : q ≠ p) :
    ((s.takeId p i c).posAt q).id = (s.posAt q).id := ((takeId_steadyBut s p i c).holds q h).1

/-- The ID that left the list is not in it. -/
theorem not_listed_takeId (s : State) (p : Pos) (i : SensorId) (c : Cause) : i ∉ (s.takeId p i c).listed := by
  rw [listed_of_aside (takeId_aside s p i c)]
  intro hi
  obtain ⟨e, he, rfl⟩ := List.mem_map.mp hi
  simp [State.removeCandidate] at he

/-- A record that has given up its ID is consistent. -/
theorem giveUp_consistent {s : State} {p : Pos} {b : BindState} (c : Cause) {u : Bool} (hb : b.holdsId = false)
    (hv : b = .vacant ↔ u = false) : ((s.giveUp p b c).posAt p).consistent u :=
  ⟨by simp [hb], by simpa using hv, by simp⟩

/-- A record that has taken an ID is consistent. -/
theorem takeId_consistent (s : State) (p : Pos) (i : SensorId) (c : Cause) :
    ((s.takeId p i c).posAt p).consistent true := ⟨by simp [BindState.holdsId], by simp, by simp⟩

/-- R5, R6: a position gives up its ID, whether or not it leaves use. -/
theorem giveUp_holdings {used used' : Pos → Bool} {s : State} {p : Pos} {b : BindState} (c : Cause)
    (h : holdingsOk used s) (hb : b.holdsId = false) (hp : b = .vacant ↔ used' p = false)
    (hq : ∀ q, q ≠ p → used' q = used q) : holdingsOk used' (s.giveUp p b c) := by
  have hs := giveUp_steadyBut s p b c
  refine h.of_injection Function.injective_id (fun q i hi => ?_) (fun q => ?_) hs.listed
  · by_cases hqp : q = p
    · subst hqp; simp at hi
    · exact giveUp_id_other s b c hqp ▸ hi
  · by_cases hqp : q = p
    · subst hqp; exact giveUp_consistent c hb hp
    · exact hq q hqp ▸ PosRec.consistent_of_holdsAs (hs.holds q hqp) (h.consistent q)

/-- R5, R6, R54: a position in use takes an ID that no other one holds. -/
theorem takeId_holdings {used : Pos → Bool} {s : State} {p : Pos} {i : SensorId} (c : Cause) (h : holdingsOk used s)
    (hp : used p = true) (hi : ∀ q, q ≠ p → (s.posAt q).id ≠ some i) : holdingsOk used (s.takeId p i c) := by
  have hs := takeId_steadyBut s p i c
  refine ⟨fun q => ?_, fun q r j hq hr => ?_, fun q j hq hj => ?_⟩
  · by_cases hqp : q = p
    · subst hqp; rw [hp]; exact takeId_consistent s q i c
    · exact PosRec.consistent_of_holdsAs (hs.holds q hqp) (h.consistent q)
  · by_cases hqp : q = p
    · by_cases hrp : r = p
      · rw [hqp, hrp]
      · subst hqp
        rw [takeId_id, Option.some.injEq] at hq
        rw [takeId_id_other s i c hrp, ← hq] at hr
        exact absurd hr (hi r hrp)
    · rw [takeId_id_other s i c hqp] at hq
      by_cases hrp : r = p
      · subst hrp
        rw [takeId_id, Option.some.injEq] at hr
        rw [← hr] at hq
        exact absurd hq (hi q hqp)
      · rw [takeId_id_other s i c hrp] at hr
        exact h.unique q r j hq hr
  · by_cases hqp : q = p
    · subst hqp
      rw [takeId_id, Option.some.injEq] at hq
      rw [← hq] at hj
      exact not_listed_takeId s q i c hj
    · rw [takeId_id_other s i c hqp] at hq
      exact h.unlisted q j hq (hs.listed hj)

/-- R13: one half of an exchange: the record takes what the other held, an ID or none. -/
def State.receive (s : State) (p : Pos) (x : Option SensorId) (c : Cause) : State :=
  match x with
  | some i => s.takeId p i c
  | none => s.giveUp p .unlearned c

theorem exchange_eq (s : State) (p q : Pos) (c : Cause) :
    s.exchange p q c = (s.receive p (s.posAt q).id c).receive q (s.posAt p).id c := by
  unfold State.exchange
  dsimp only
  cases (s.posAt q).id with
  | none => cases (s.posAt p).id with
    | none => simp only [State.receive]
    | some x => simp only [State.receive]
  | some y => cases (s.posAt p).id with
    | none => simp only [State.receive]
    | some x => simp only [State.receive]

theorem receive_keeps (s : State) (p : Pos) (x : Option SensorId) (c : Cause) : Keeps s (s.receive p x c) := by
  unfold State.receive
  split
  · exact takeId_keeps ..
  · exact giveUp_keeps ..

theorem receive_steadyBut (s : State) (p : Pos) (x : Option SensorId) (c : Cause) :
    SteadyBut (· = p) s (s.receive p x c) := by
  unfold State.receive
  split
  · exact takeId_steadyBut ..
  · exact giveUp_steadyBut ..

@[simp] theorem receive_id (s : State) (p : Pos) (x : Option SensorId) (c : Cause) :
    ((s.receive p x c).posAt p).id = x := by
  unfold State.receive
  split <;> simp

theorem receive_consistent (s : State) (p : Pos) (x : Option SensorId) (c : Cause) :
    ((s.receive p x c).posAt p).consistent true := by
  unfold State.receive
  split
  · exact takeId_consistent ..
  · exact giveUp_consistent c rfl (by simp)

theorem exchange_keeps (s : State) (p q : Pos) (c : Cause) : Keeps s (s.exchange p q c) := by
  rw [exchange_eq]
  exact (receive_keeps ..).trans (receive_keeps ..)

/-- R13, R6: two positions in use exchange what they hold; the IDs after it are those before it, swapped. -/
theorem exchange_holdings {used : Pos → Bool} {s : State} {p q : Pos} (c : Cause) (h : holdingsOk used s)
    (hpq : p ≠ q) (hp : used p = true) (hq : used q = true) : holdingsOk used (s.exchange p q c) := by
  have h1 := receive_steadyBut s p (s.posAt q).id c
  have h2 := receive_steadyBut (s.receive p (s.posAt q).id c) q (s.posAt p).id c
  rw [exchange_eq]
  refine h.of_injection (Equiv.swap p q).injective (fun r i hi => ?_) (fun r => ?_)
    (fun i hi => h1.listed (h2.listed hi))
  · by_cases hrq : r = q
    · subst hrq
      rw [receive_id] at hi
      rw [Equiv.swap_apply_right]
      exact hi
    · rw [(h2.holds r hrq).1] at hi
      by_cases hrp : r = p
      · subst hrp
        rw [receive_id] at hi
        rw [Equiv.swap_apply_left]
        exact hi
      · rw [(h1.holds r hrp).1] at hi
        rw [Equiv.swap_apply_of_ne_of_ne hrp hrq]
        exact hi
  · by_cases hrq : r = q
    · subst hrq; rw [hq]; exact receive_consistent ..
    · refine PosRec.consistent_of_holdsAs (h2.holds r hrq) ?_
      by_cases hrp : r = p
      · subst hrp; rw [hp]; exact receive_consistent ..
      · exact PosRec.consistent_of_holdsAs (h1.holds r hrp) (h.consistent r)

/-! ### Who holds an ID (R6) -/

/-- The holder holds the ID. -/
theorem id_of_holder {s : State} {i : SensorId} {p : Pos} (h : s.holder i = some p) : (s.posAt p).id = some i := by
  have hp := List.find?_some h
  simpa using hp

/-- Without a holder no position holds the ID. -/
theorem id_ne_of_holder_none {s : State} {i : SensorId} (h : s.holder i = none) (p : Pos) :
    (s.posAt p).id ≠ some i := by
  have hp := List.find?_eq_none.mp h p (List.mem_finRange p)
  simpa using hp

/-- A position that holds an ID is in a state that does, and in use. -/
theorem holdingsOk.of_id {used : Pos → Bool} {s : State} {p : Pos} {i : SensorId} (h : holdingsOk used s)
    (hp : (s.posAt p).id = some i) : (s.posAt p).state.holdsId = true ∧ used p = true := by
  obtain ⟨hid, hv, -⟩ := h.consistent p
  have hh : (s.posAt p).state.holdsId = true := by rw [← hid, hp]; rfl
  refine ⟨hh, ?_⟩
  by_contra hu
  exact BindState.ne_vacant_of_holdsId hh (hv.mpr (by simpa using hu))

/-- A position that is not VACANT is in use. -/
theorem holdingsOk.used_of_ne {used : Pos → Bool} {s : State} {p : Pos} (h : holdingsOk used s)
    (hp : (s.posAt p).state ≠ .vacant) : used p = true := by
  by_contra hu
  exact hp ((h.consistent p).2.1.mpr (by simpa using hu))

/-! ### The commands on bindings (R10 to R14) -/

/-- The out-of-care marks belong to no invariant. -/
theorem markOutOfCare_calm (s : State) (p : Pos) : Calm s (s.markOutOfCare p) := by
  refine mapRecords_calm s _ (fun r => ?_)
  split <;> exact ⟨rfl, rfl, fun _ => rfl⟩

@[simp] theorem posAt_markOutOfCare (s : State) (p q : Pos) : (s.markOutOfCare p).posAt q = s.posAt q := rfl

/-- R11, R74: the position becomes BOUND without a claim. -/
theorem confirmBound_calm {s : State} {p : Pos} (h : (s.posAt p).state.holdsId = true) :
    Calm s (s.modPos p (fun r => { r with state := .bound, claim := none })) :=
  Calm.modPos rfl (PosRec.holdsAs_of_holdsId h rfl rfl (.inr rfl))

theorem confirmBound_keeps (s : State) (p : Pos) :
    Keeps s (s.modPos p (fun r => { r with state := .bound, claim := none })) := Keeps.modPos rfl

theorem bindOwn_calm {s : State} {p : Pos} (h : (s.posAt p).state.holdsId = true) (i : SensorId) (t : Byte) :
    Calm s (s.bindOwn p i t) :=
  (confirmBound_calm h).trans ((arm_calm _ p _).trans ((settleSilent_calm _ p _).trans
    ((markOutOfCare_calm _ p).trans (notify_calm ..))))

theorem loseTo_keeps (s : State) (q : Pos) (i : SensorId) (t : Byte) : Keeps s (s.loseTo q i t) :=
  (giveUp_keeps s q _ _).trans ((markOutOfCare_calm _ q).trans (notify_calm ..)).keeps

theorem loseTo_holdings {used : Pos → Bool} {s : State} {q : Pos} (i : SensorId) (t : Byte) (h : holdingsOk used s)
    (hq : used q = true) : holdingsOk used (s.loseTo q i t) :=
  ((markOutOfCare_calm _ q).trans (notify_calm ..)).steady.holdings
    (giveUp_holdings _ h rfl (by simp [hq]) (fun _ _ => rfl))

theorem posAt_loseTo_id (s : State) (q r : Pos) (i : SensorId) (t : Byte) :
    ((s.loseTo q i t).posAt r).id = if r = q then none else (s.posAt r).id := by
  unfold State.loseTo
  rw [posAt_notify, posAt_markOutOfCare]
  split
  · next h => subst h; exact giveUp_id ..
  · next h => exact giveUp_id_other s _ _ h

theorem bindOther_keeps (s : State) (p : Pos) (i : SensorId) (t : Byte) : Keeps s (s.bindOther p i t) := by
  have htail (u : State) : Keeps u (((u.takeId p i .command).markOutOfCare p).notify .bound (some p) t i 0) :=
    (takeId_keeps u p i _).trans ((markOutOfCare_calm _ p).trans (notify_calm ..)).keeps
  unfold State.bindOther
  dsimp only
  split
  · exact (loseTo_keeps ..).trans (htail _)
  · exact htail s

theorem bindOther_holdings {used : Pos → Bool} {s : State} {p : Pos} (i : SensorId) (t : Byte) (h : holdingsOk used s)
    (hp : used p = true) : holdingsOk used (s.bindOther p i t) := by
  have htail {u : State} (hu : holdingsOk used u) (hi : ∀ q, q ≠ p → (u.posAt q).id ≠ some i) :
      holdingsOk used (((u.takeId p i .command).markOutOfCare p).notify .bound (some p) t i 0) :=
    ((markOutOfCare_calm _ p).trans (notify_calm ..)).steady.holdings (takeId_holdings _ hu hp hi)
  unfold State.bindOther
  dsimp only
  split
  · next q hq =>
    have hid := id_of_holder hq
    refine htail (loseTo_holdings i t h (h.of_id hid).2) (fun r _ hr => ?_)
    rw [posAt_loseTo_id] at hr
    split at hr
    · cases hr
    · next hrq => exact hrq (h.unique r q i hr hid)
  · next hn => exact htail h (fun q _ => id_ne_of_holder_none hn q)

theorem commandBind_all (s : State) (p : Pos) (i : SensorId) (t : Byte) : KeepsAll s (s.commandBind p i t).1 := by
  have hl : (s.commandBind p i t).1.layout = s.layout := layout_of_base (commandBind_base s p i t)
  refine ⟨?_, fun h => ?_⟩
  · unfold State.commandBind
    split
    · exact Keeps.refl s
    · split
      · exact ((confirmBound_keeps s p).trans ((arm_calm _ p _).trans ((settleSilent_calm _ p _).trans
          ((markOutOfCare_calm _ p).trans (notify_calm ..)))).keeps)
      · exact bindOther_keeps ..
  · rw [hl]
    unfold State.commandBind
    split
    · exact h
    · next hno =>
      split
      · next hid => exact (bindOwn_calm (h.of_id hid).1 i t).steady.holdings h
      · exact bindOther_holdings i t h (h.used_of_ne (fun hv => hno (.inl hv)))

end Sys2Proof.Machine
end

section
/-! The other commands on bindings, the trailer fall, the layout, leaving RUN and the taking of a sample keep the
invariants (R3, R4, R12, R13, R18, R22 to R24, R86). A layout word is followed position by position: those that have been
relaid stand in the new layout, the others still in the old one. -/

namespace Sys2Proof.Machine
open Sys2Proof.Claim

/-! ### UNBIND and SWAP (R12, R13) -/

/-- R12: a LOCATING position becomes UNLEARNED. -/
theorem unlocate_calm {s : State} {p : Pos} (h : (s.posAt p).state = .locating) :
    Calm s (s.modPos p (fun r => { r with state := .unlearned })) :=
  Calm.modPos rfl (PosRec.holdsAs_of_seeking (.inr h) (.inl rfl) rfl (.inl rfl))

theorem commandUnbind_all (s : State) (p : Pos) (t : Byte) : KeepsAll s (s.commandUnbind p t).1 := by
  have hl : (s.commandUnbind p t).1.layout = s.layout := layout_of_base (commandUnbind_base s p t)
  have hlose (i : SensorId) : Keeps s (((s.giveUp p .unlearned .command).markOutOfCare p).notify .unbound (some p) t i 0) :=
    (giveUp_keeps ..).trans ((markOutOfCare_calm _ p).trans (notify_calm ..)).keeps
  have hhold (i : SensorId) (hp : (s.posAt p).state ≠ .vacant) (h : holdingsOk (inUse s.layout) s) :
      holdingsOk (inUse s.layout)
        (((s.giveUp p .unlearned .command).markOutOfCare p).notify .unbound (some p) t i 0) :=
    loseTo_holdings i t h (h.used_of_ne hp)
  refine ⟨?_, fun h => ?_⟩
  · unfold State.commandUnbind
    split
    · exact Keeps.refl s
    · exact Keeps.refl s
    · next hloc => exact ((unlocate_calm hloc).trans (markOutOfCare_calm _ p)).keeps
    all_goals exact hlose _
  · rw [hl]
    unfold State.commandUnbind
    split
    · exact h
    · exact h
    · next hloc => exact ((unlocate_calm hloc).trans (markOutOfCare_calm _ p)).steady.holdings h
    all_goals next hst => exact hhold _ (by rw [hst]; decide) h

theorem swapPositions_keeps (s : State) (p q : Pos) (t : Byte) : Keeps s (s.swapPositions p q t) :=
  (exchange_keeps s p q _).trans ((markOutOfCare_calm _ p).trans ((markOutOfCare_calm _ q).trans
    (notify_calm ..))).keeps

theorem commandSwap_all (s : State) (p : Pos) (w : Word) (t : Byte) : KeepsAll s (s.commandSwap p w t).1 := by
  have hl : (s.commandSwap p w t).1.layout = s.layout := layout_of_base (commandSwap_base s p w t)
  refine ⟨?_, fun h => ?_⟩
  · unfold State.commandSwap
    split
    · exact Keeps.refl s
    · split
      · exact Keeps.refl s
      · exact swapPositions_keeps ..
  · rw [hl]
    unfold State.commandSwap
    split
    · exact h
    · next q _ =>
      split
      · exact h
      · next hno =>
        obtain ⟨hp, hq, hpq, -⟩ := not_or.mp hno |>.imp id (fun x => not_or.mp x |>.imp id not_or.mp)
        exact ((markOutOfCare_calm _ p).trans ((markOutOfCare_calm _ q).trans (notify_calm ..))).steady.holdings
          (exchange_holdings _ h hpq (h.used_of_ne hp) (h.used_of_ne hq))

/-! ### The trailer fall (R18) -/

theorem detachOne_calm (s : State) (p : Pos) : Calm s (s.detachOne p) := by
  have hlast (u : State) : Calm u (u.modPos p (fun r => { r with deadline := none, claim := none })) :=
    Calm.modPos rfl ⟨rfl, rfl, Iff.rfl, .inr rfl⟩
  have hdetach (h : (s.posAt p).state.holdsId = true) : Calm s
      (((s.enter p .detached).clearRecheck p .trailer).modPos p (fun r => { r with deadline := none, claim := none })) :=
    (enter_calm h rfl).trans ((clearRecheck_calm _ p _).trans (hlast _))
  unfold State.detachOne
  split
  · next h => exact unlocate_calm h
  · next h => exact hdetach (by rw [h]; rfl)
  · next h => exact hdetach (by rw [h]; rfl)
  · next h => exact hdetach (by rw [h]; rfl)
  all_goals exact Calm.refl s

theorem detachTrailer_calm (s : State) : Calm s s.detachTrailer :=
  (Calm.foldl detachOne_calm _ s).trans (Calm.foldl (fun _ _ => notify_calm ..) _ _)

/-! ### The layout (R3, R4, R86) -/

/-- R3: a record without an ID gets its reset values and a state that holds none, in or out of use. -/
theorem resetRecord_holdings {used used' : Pos → Bool} {s u : State} {p : Pos} {b : BindState} (h : holdingsOk used s)
    (hs : Steady s u) (hid : (s.posAt p).id = none) (hb : b.holdsId = false) (hp : b = .vacant ↔ used' p = false)
    (hq : ∀ q, q ≠ p → used' q = used q) :
    holdingsOk used' (u.modPos p (fun r => { r.emptied.noArrival with state := b })) := by
  have hidu : (u.posAt p).id = none := (hs.holds p id).1.trans hid
  have hu := hs.holdings h
  have hm := SteadyBut.modPos u p (fun r => { r.emptied.noArrival with state := b })
  refine hu.of_injection Function.injective_id (fun q i hi => ?_) (fun q => ?_) hm.listed
  · rw [posAt_modPos] at hi
    split at hi
    · change (u.posAt p).id = some i at hi
      rw [hidu] at hi
      cases hi
    · exact hi
  · by_cases hqp : q = p
    · subst hqp
      rw [posAt_modPos_same]
      exact ⟨by change (u.posAt q).id.isSome = b.holdsId; rw [hidu, hb]; rfl, hp, fun hc => by cases hc⟩
    · rw [hq q hqp, posAt_modPos_other _ _ _ _ hqp]
      exact hu.consistent q

theorem leaveUse_keeps (s : State) (p : Pos) (b : BindState) : Keeps s (s.leaveUse p b) := by
  have hm (u : State) : Keeps u (u.modPos p (fun r => { r.emptied.noArrival with state := b })) := Keeps.modPos rfl
  unfold State.leaveUse
  split
  · exact (giveUp_keeps ..).trans (notify_calm ..).keeps
  · exact ((withdrawAll_calm s p).trans (clearRecheck_calm _ p _)).keeps.trans (hm _)

theorem leaveUse_holdings {used used' : Pos → Bool} {s : State} {p : Pos} {b : BindState} (h : holdingsOk used s)
    (hb : b.holdsId = false) (hp : b = .vacant ↔ used' p = false) (hq : ∀ q, q ≠ p → used' q = used q) :
    holdingsOk used' (s.leaveUse p b) := by
  unfold State.leaveUse
  split
  · exact (notify_calm ..).steady.holdings (giveUp_holdings _ h hb hp hq)
  · next hid =>
    exact resetRecord_holdings h ((withdrawAll_calm s p).trans (clearRecheck_calm _ p .layout)).steady hid hb hp hq

theorem relayPosition_keeps (old new : Word) (s : State) (p : Pos) : Keeps s (State.relayPosition old new s p) := by
  unfold State.relayPosition
  split
  · split
    · split
      · exact Keeps.refl s
      · exact leaveUse_keeps ..
    · exact leaveUse_keeps ..
  · split
    · exact Keeps.modPos rfl
    · exact Keeps.refl s

/-- R3: the positions in use once those of a list have been relaid. -/
def usedAfter (old new : Word) (relaid : List Pos) (p : Pos) : Bool :=
  if p ∈ relaid then inUse new p else inUse old p

theorem relayPosition_holdings (old new : Word) (done : List Pos) {s : State} {p : Pos} (hp : p ∉ done)
    (h : holdingsOk (usedAfter old new done) s) :
    holdingsOk (usedAfter old new (p :: done)) (State.relayPosition old new s p) := by
  have hother : ∀ q, q ≠ p → usedAfter old new (p :: done) q = usedAfter old new done q := by
    intro q hq
    simp [usedAfter, hq]
  have hold : usedAfter old new done p = inUse old p := by simp [usedAfter, hp]
  have hnew : usedAfter old new (p :: done) p = inUse new p := by simp [usedAfter]
  have hstay (heq : inUse new p = inUse old p) : usedAfter old new (p :: done) = usedAfter old new done := by
    funext q
    by_cases hq : q = p
    · subst hq; rw [hold, hnew, heq]
    · exact hother q hq
  unfold State.relayPosition
  split
  · next ho =>
    split
    · next hn =>
      split
      · rw [hstay (by rw [ho, hn])]; exact h
      · exact leaveUse_holdings h rfl (by simp [hnew, hn]) hother
    · next hn => exact leaveUse_holdings h rfl (by simp [hnew, hn]) hother
  · next ho =>
    have hoff : inUse old p = false := by simpa using ho
    split
    · next hn =>
      have hvac : (s.posAt p).state = .vacant := (h.consistent p).2.1.mpr (by rw [hold, hoff])
      have hid : (s.posAt p).id = none := by
        have hsome := (h.consistent p).1
        rw [hvac] at hsome
        simpa [BindState.holdsId] using hsome
      exact resetRecord_holdings h (Steady.refl s) hid rfl (by simp [hnew, hn]) hother
    · next hn => rw [hstay (by rw [hoff]; simpa using hn)]; exact h

/-- R3: the positions of a list without repetitions are relaid one after the other. -/
theorem foldl_relayPosition_holdings (old new : Word) (l done : List Pos) (s : State) (hl : l.Nodup)
    (hd : ∀ p ∈ l, p ∉ done) (h : holdingsOk (usedAfter old new done) s) :
    holdingsOk (usedAfter old new (l.reverse ++ done)) (l.foldl (State.relayPosition old new) s) := by
  induction l generalizing done s with
  | nil => exact h
  | cons p ps ih =>
    obtain ⟨hp, hps⟩ := List.nodup_cons.mp hl
    rw [List.foldl_cons, List.reverse_cons, List.append_assoc]
    refine ih (p :: done) _ hps (fun q hq hmem => ?_)
      (relayPosition_holdings old new done (hd p List.mem_cons_self) h)
    obtain rfl | hmem := List.mem_cons.mp hmem
    · exact hp hq
    · exact hd q (List.mem_cons_of_mem p hq) hmem

theorem relayAxlePosition_calm (old new : Word) (s : State) (p : Pos) :
    Calm s (State.relayAxlePosition old new s p) := by
  unfold State.relayAxlePosition
  split
  · exact Calm.refl s
  · split
    · have h1 : Calm s (if (s.posAt p).state = .locating then s.modPos p (fun r => { r with state := .unlearned })
          else s) := by
        split
        · next hloc => exact unlocate_calm hloc
        · exact Calm.refl s
      dsimp only
      split
      · exact h1.trans (withdraw_calm ..)
      · exact h1
    · exact Calm.refl s

/-- R3, R4, R86, R90: what follows the relaying of the positions. -/
def State.afterRelay (s : State) (old new : Word) : State :=
  let s := s.tearDown (fun c => axleChanges old new (coilAxle c))
  let s := positionsInOrder.foldl (State.relayAxlePosition old new) s
  let s := s.clampAll
  s.offerEach (coilsInOrder.filter (s.recheckAfterLayout old new)) .recheck 0

theorem takeLayout_eq (s : State) (old new : Word) :
    s.takeLayout old new = (positionsInOrder.foldl (State.relayPosition old new) s).afterRelay old new := rfl

theorem afterRelay_calm (s : State) (old new : Word) : Calm s (s.afterRelay old new) :=
  (tearDown_calm s _).trans ((Calm.foldl (relayAxlePosition_calm old new) _ _).trans
    ((clampAll_calm _).trans (offerEach_calm ..)))

theorem takeLayout_keeps (s : State) (old new : Word) : Keeps s (s.takeLayout old new) := by
  rw [takeLayout_eq]
  exact (Keeps.foldl (relayPosition_keeps old new) _ s).trans (afterRelay_calm ..).keeps

/-- R3: a taken layout brings the positions from the old layout into the new one. -/
theorem takeLayout_holdings {old : Word} (new : Word) {s : State} (h : holdingsOk (inUse old) s) :
    holdingsOk (inUse new) (s.takeLayout old new) := by
  have hstart : usedAfter old new [] = inUse old := by funext p; simp [usedAfter]
  have hend : usedAfter old new (positionsInOrder.reverse ++ []) = inUse new := by
    funext p
    simp [usedAfter, positionsInOrder]
  rw [takeLayout_eq]
  refine (afterRelay_calm ..).steady.holdings (hend ▸ ?_)
  exact foldl_relayPosition_holdings old new positionsInOrder [] s (List.nodup_finRange 26) (by simp) (hstart ▸ h)

/-! ### Leaving RUN and samples (R22 to R24) -/

theorem leaveRunPositions_calm (s : State) : Calm s s.leaveRunPositions := by
  refine Calm.mapPos (fun _ _ => rfl) (fun p => ?_)
  by_cases h : (s.posAt p).state = .locating
  · exact PosRec.holdsAs_of_seeking (.inr h) (.inl (by simp [h])) rfl (.inr rfl)
  · exact ⟨rfl, by simp [h], by simp [h], .inr rfl⟩

theorem fillSample_calm (s : State) (p : Pos) (t : RecentEntry) : Calm s (s.fillSample p t) := by
  refine Calm.modPos rfl ?_
  by_cases h : (s.posAt p).state = .suspect
  · exact PosRec.holdsAs_of_holdsId (by rw [h]; rfl) (by simp [h, BindState.holdsId]) rfl (.inl rfl)
  · exact PosRec.holdsAs_of_same rfl (by simp [h]) rfl

theorem applySample_calm (s : State) (p : Pos) (t : RecentEntry) : Calm s (s.applySample p t) := by
  have htrack := (fillSample_calm s p t).trans (track_calm (s.fillSample p t) p t.payload.kind t.firstArrival)
  have heval : Calm s (match ((s.fillSample p t).posAt p).sample with
      | some x => ((s.fillSample p t).track p t.payload.kind t.firstArrival).evaluateSample p x
      | none => (s.fillSample p t).track p t.payload.kind t.firstArrival) := by
    split
    · exact htrack.trans (evaluateSample_calm ..)
    · exact htrack
  unfold State.applySample
  split
  · exact heval
  · exact heval
  · exact htrack
  all_goals exact Calm.refl s

end Sys2Proof.Machine
end

section
/-! The trigger unit and the intake unit keep the invariants (chapters 2 and 4): the start of a fire, the answers, the
outcomes of a classification, and the way of a delivery to the recent list and from there to its owner. -/

namespace Sys2Proof.Machine
open Sys2Proof.Claim

/-! ### Firing (R63 to R67) -/

/-- R66: an issued code is not 0, and no record holds it. -/
theorem nextCode_spec {t : Trigger} {c : BitVec 4} (h : t.nextCode = some c) :
    c ≠ 0 ∧ ∀ r ∈ t.records, r.code ≠ c := by
  constructor
  · obtain ⟨k, -, rfl⟩ := List.mem_map.mp (List.mem_of_find?_eq_some h)
    intro h0
    have hn := congrArg BitVec.toNat h0
    simp at hn
    omega
  · intro r hr hc
    have hfree := List.find?_some h
    simp only [Bool.not_eq_true', List.any_eq_false, beq_iff_eq] at hfree
    exact hfree r hr hc

/-- R63: what eligibility says of the records. -/
theorem eligible_records {s : State} {r : Request} (h : s.eligible r = true) :
    s.trigger.records.length < 4 ∧ ∀ x ∈ s.trigger.records, x.coil ≠ r.coil := by
  simp only [State.eligible, Bool.and_eq_true, Bool.not_eq_true', List.any_eq_false, beq_iff_eq, decide_eq_true_eq,
    Config.fireRecords] at h
  obtain ⟨⟨⟨⟨⟨⟨-, hcoil⟩, hlen⟩, -⟩, -⟩, -⟩, -⟩ := h
  exact ⟨of_decide_eq_true hlen, hcoil⟩

/-- R63, R66: the record of a fire joins the records. -/
theorem started_firesOk {s : State} {r : Request} {c : BitVec 4} (window now : Nat) (he : s.eligible r = true)
    (hc : s.trigger.nextCode = some c) (h : firesOk s.trigger.records s.candidates) :
    firesOk (s.trigger.started r c window now).records s.candidates := by
  obtain ⟨hlt, hcoil⟩ := eligible_records he
  obtain ⟨hzero, hfree⟩ := nextCode_spec hc
  obtain ⟨⟨hlen, hcoils, hcodes, hzeros⟩, hclen, hid, hclaim⟩ := h
  have hrec : (s.trigger.started r c window now).records = s.trigger.records ++ [openRecord r c window now] := rfl
  rw [hrec]
  refine ⟨⟨by simp; omega, ?_, ?_, fun x hx => ?_⟩, hclen, hid, fun e hm => ?_⟩
  · rw [List.map_append, List.nodup_append]
    refine ⟨hcoils, List.nodup_singleton _, fun a ha b hb => ?_⟩
    obtain ⟨x, hx, rfl⟩ := List.mem_map.mp ha
    obtain rfl : b = r.coil := by simpa [openRecord] using hb
    exact hcoil x hx
  · rw [List.map_append, List.nodup_append]
    refine ⟨hcodes, List.nodup_singleton _, fun a ha b hb => ?_⟩
    obtain ⟨x, hx, rfl⟩ := List.mem_map.mp ha
    obtain rfl : b = c := by simpa [openRecord] using hb
    exact hfree x hx
  · obtain hx | hx := List.mem_append.mp hx
    · exact hzeros x hx
    · obtain rfl := List.mem_singleton.mp hx
      exact hzero
  · rw [hclaim e hm, List.any_append]
    simp [openRecord, FireRec.answeredBy]

/-- R15: an UNLEARNED position becomes LOCATING. -/
theorem locating_calm (s : State) (c : Coil) : Calm s (s.locating c) := by
  refine Calm.mapPos (fun p r => ?_) (fun p => ?_)
  · split <;> rfl
  · split
    · next h => exact PosRec.holdsAs_of_seeking (.inl h.1) (.inr rfl) rfl (.inl rfl)
    · exact PosRec.holdsAs_refl _

theorem startFire_calm {s : State} {r : Request} (he : s.eligible r = true) : Calm s (s.startFire r) := by
  unfold State.startFire
  split
  · exact Calm.refl s
  · next c hc =>
    have h : Calm s { s with trigger := s.trigger.started r c (s.setting .responseWindow) s.now } :=
      Calm.lists (cs := s.candidates) (started_firesOk _ _ he hc) (fun h => h.sublist List.erase_sublist)
        (fun _ h => h)
    dsimp only
    split
    · exact h.trans (locating_calm _ _)
    · exact h

theorem schedule_calm (s : State) : Calm s s.schedule := by
  unfold State.schedule
  split
  · next r hr => exact startFire_calm (List.find?_some hr)
  · exact Calm.refl s

/-- R67: records that become CLOSING. -/
theorem closeRecords_calm (s : State) (c : Coil) :
    Calm s { s with trigger := { s.trigger with records := s.trigger.records.map (fun r =>
      if r.coil = c ∧ r.openEnds ≤ s.now then { r with closing := true } else r) } } := by
  refine mapRecords_calm s _ (fun r => ?_)
  split <;> exact ⟨rfl, rfl, fun _ => rfl⟩

/-! ### Answers (R49, R68) -/

/-- R68: an answer leaves the coil and the code of its record. -/
theorem answer_same (r : FireRec) (i : SensorId) (l : BitVec 4) :
    (r.answer i l).coil = r.coil ∧ (r.answer i l).code = r.code := by
  unfold FireRec.answer
  split
  · exact ⟨rfl, rfl⟩
  · split <;> exact ⟨rfl, rfl⟩

/-- R49, R68: an answer makes its record hold the ID, if it is admitted, and changes nothing for another ID. -/
theorem answeredBy_answer (r : FireRec) (i j : SensorId) (l : BitVec 4) :
    (r.answer i l).answeredBy j = (r.answeredBy j || (j == i && r.admitsAnswer i)) := by
  have hmap : ∀ (xs : List Response),
      (xs.map (fun x => if x.id = i ∧ x.lf.toNat < l.toNat then { x with lf := l } else x)).any (fun x => x.id == j) =
        xs.any (fun x => x.id == j) := by
    intro xs
    rw [List.any_map]
    congr 1
    funext x
    simp only [Function.comp]
    split <;> rfl
  unfold FireRec.answer FireRec.admitsAnswer
  by_cases ha : r.answeredBy i = true
  · rw [if_pos ha]
    have hsame : ({ r with responses := r.responses.map (fun x =>
        if x.id = i ∧ x.lf.toNat < l.toNat then { x with lf := l } else x) } : FireRec).answeredBy j = r.answeredBy j :=
      hmap _
    rw [hsame, ha]
    by_cases hj : j = i
    · subst hj; simp [ha]
    · simp [hj]
  · rw [if_neg ha]
    simp only [Bool.not_eq_true] at ha
    split
    · next hlen =>
      simp only [FireRec.answeredBy, List.any_append, List.any_cons, List.any_nil, Bool.or_false, hlen, decide_true,
        Bool.or_true, Bool.and_true]
      congr 1
      exact BEq.comm
    · next hlen =>
      have hsame : ({ r with overfull := true } : FireRec).answeredBy j = r.answeredBy j := rfl
      rw [hsame, ha]
      simp [hlen]

/-- R49, R68: the records and the candidates after an answer. -/
theorem offerAnswer_firesOk {rs : List FireRec} {cs : List Candidate} {r : FireRec} (i : SensorId) (l : BitVec 4)
    (hr : r ∈ rs) (h : firesOk rs cs) :
    firesOk (rs.map (fun x => if x.coil = r.coil then x.answer i l else x))
      (if r.admitsAnswer i then cs.map (fun e => if e.id = i then e.answeredIn (r.answer i l) else e) else cs) := by
  obtain ⟨⟨hlen, hcoil, hcode, hzero⟩, hclen, hid, hclaim⟩ := h
  have hsame : ∀ x : FireRec, (if x.coil = r.coil then x.answer i l else x).coil = x.coil ∧
      (if x.coil = r.coil then x.answer i l else x).code = x.code := by
    intro x
    split
    · exact answer_same x i l
    · exact ⟨rfl, rfl⟩
  have hone : ∀ x ∈ rs, x.coil = r.coil → x = r := fun x hx hc => List.inj_on_of_nodup_map hcoil hx hr hc
  have hanswered : ∀ j, (rs.map (fun x => if x.coil = r.coil then x.answer i l else x)).any (fun x => x.answeredBy j) =
      (rs.any (fun x => x.answeredBy j) || (j == i && r.admitsAnswer i)) := by
    intro j
    rw [List.any_map, Bool.eq_iff_iff]
    simp only [Bool.or_eq_true, List.any_eq_true, Function.comp]
    constructor
    · rintro ⟨x, hx, hax⟩
      split at hax
      · next hc =>
        rw [answeredBy_answer, Bool.or_eq_true, hone x hx hc] at hax
        exact hax.imp (fun h => ⟨r, hr, h⟩) id
      · exact .inl ⟨x, hx, hax⟩
    · rintro (⟨x, hx, hax⟩ | hnew)
      · refine ⟨x, hx, ?_⟩
        split
        · rw [answeredBy_answer, hax, Bool.true_or]
        · exact hax
      · refine ⟨r, hr, ?_⟩
        rw [if_pos rfl, answeredBy_answer, hnew, Bool.or_true]
  refine ⟨⟨by simpa using hlen, ?_, ?_, fun x hx => ?_⟩, ?_, ?_, ?_⟩
  · rw [List.map_map]
    exact (List.map_congr_left (g := FireRec.coil) fun x _ => (hsame x).1) ▸ hcoil
  · rw [List.map_map]
    exact (List.map_congr_left (g := FireRec.code) fun x _ => (hsame x).2) ▸ hcode
  · obtain ⟨y, hy, rfl⟩ := List.mem_map.mp hx
    rw [(hsame y).2]
    exact hzero y hy
  · split
    · simpa using hclen
    · exact hclen
  · split
    · rw [List.map_map]
      have hids : ∀ e : Candidate, (Candidate.id ∘ fun e => if e.id = i then e.answeredIn (r.answer i l) else e) e = e.id := by
        intro e
        simp only [Function.comp]
        split <;> rfl
      rw [List.map_congr_left (g := Candidate.id) fun e _ => hids e]
      exact hid
    · exact hid
  · intro e he
    rw [hanswered]
    split at he
    · next hadm =>
      obtain ⟨c, hc, rfl⟩ := List.mem_map.mp he
      by_cases hci : c.id = i
      · simp [hci, Candidate.answeredIn, hadm]
      · simp [hci, hclaim c hc]
    · next hadm => simp [hclaim e he, hadm]

theorem offerAnswer_calm (s : State) (i : SensorId) (echo lf : BitVec 4) (arrival : Time) :
    Calm s (s.offerAnswer i echo lf arrival) := by
  unfold State.offerAnswer
  split
  · exact Calm.lists (cs := s.candidates) id id (fun _ h => h)
  · next r hr =>
    refine Calm.lists (fun h => offerAnswer_firesOk i lf (List.mem_of_find?_eq_some hr) h) id (fun j hj => ?_)
    split at hj
    · rw [List.map_map] at hj
      obtain ⟨e, he, rfl⟩ := List.mem_map.mp hj
      refine List.mem_map.mpr ⟨e, he, ?_⟩
      simp only [Function.comp]
      split <;> rfl
    · exact hj

/-! ### Outcomes (R73 to R80) -/

theorem confirm_keeps (s : State) (p : Pos) (t : Byte) : Keeps s (s.confirm p t) := by
  have harm (u : State) : Calm u (if (s.posAt p).armsOnConfirm then u.arm p u.now else u) := by
    split
    · exact arm_calm ..
    · exact Calm.refl u
  have hbody := (confirmBound_keeps s p).trans ((harm _).trans (settleSilent_calm _ p (s.posAt p).state)).keeps
  unfold State.confirm
  dsimp only
  split
  · exact hbody.trans (notify_calm ..).keeps
  · exact hbody

theorem confirm_calm {s : State} {p : Pos} (h : (s.posAt p).state.holdsId = true) (t : Byte) :
    Calm s (s.confirm p t) := by
  refine ⟨confirm_keeps s p t, ?_⟩
  have harm (u : State) : Calm u (if (s.posAt p).armsOnConfirm then u.arm p u.now else u) := by
    split
    · exact arm_calm ..
    · exact Calm.refl u
  have hbody := (confirmBound_calm h).trans ((harm _).trans (settleSilent_calm _ p (s.posAt p).state))
  unfold State.confirm
  dsimp only
  split
  · exact (hbody.trans (notify_calm ..)).steady
  · exact hbody.steady

theorem exchangeWithin_keeps (s : State) (c : Coil) (t : Byte) : Keeps s (s.exchangeWithin c t) :=
  (exchange_keeps ..).trans (notify_calm ..).keeps

theorem exchangeByClaim_keeps (s : State) (p q : Pos) (t : Byte) : Keeps s (s.exchangeByClaim p q t) :=
  (exchange_keeps ..).trans (notify_calm ..).keeps

theorem moveTo_keeps (s : State) (p q : Pos) (x : SensorId) (t : Byte) : Keeps s (s.moveTo p q x t) :=
  (giveUp_keeps ..).trans ((takeId_keeps ..).trans (notify_calm ..).keeps)

theorem bindOrReplace_keeps (s : State) (p : Pos) (x : SensorId) (t : Byte) : Keeps s (s.bindOrReplace p x t) := by
  unfold State.bindOrReplace
  split <;> exact (takeId_keeps ..).trans (notify_calm ..).keeps

/-- R9: the entry into a state, whatever it holds. -/
theorem enter_keeps (s : State) (p : Pos) (b : BindState) : Keeps s (s.enter p b) := by
  have hm (u : State) : Keeps u (u.modPos p (fun r => { r with state := b })) := Keeps.modPos rfl
  unfold State.enter
  dsimp only
  split
  · exact hm s
  · exact (withdrawAll_calm s p).keeps.trans (hm _)

/-- The recheck flag belongs to no binding and is no alert record. -/
theorem modRecheck_calm (s : State) (p : Pos) (b : Bool) : Calm s (s.modPos p (fun r => { r with recheck := b })) :=
  Calm.modPos rfl (PosRec.holdsAs_refl _)

theorem claimFor_keeps (s : State) (c : Coil) (p q : Pos) (x : SensorId) (t : Byte) :
    Keeps s (s.claimFor c p q x t) := by
  have h : Keeps s (s.modPos p (fun r => { r with claim := some x })) := Keeps.modPos rfl
  unfold State.claimFor
  dsimp only
  split
  · exact h
  · split
    · exact h.trans ((offer_calm ..).trans (modRecheck_calm ..)).keeps
    · exact h.trans ((enter_keeps ..).trans (notify_calm ..).keeps)

/-- R78: a claim of a position that holds an ID. -/
theorem claimFor_holdings {used : Pos → Bool} {s : State} (c : Coil) {p : Pos} (q : Pos) (x : SensorId) (t : Byte)
    (h : holdingsOk used s) (hp : (s.posAt p).state.holdsId = true) : holdingsOk used (s.claimFor c p q x t) := by
  have hclaim : holdingsOk used (s.modPos p (fun r => { r with claim := some x })) := by
    refine h.of_injection Function.injective_id (fun r i hi => ?_) (fun r => ?_) (SteadyBut.modPos s p _).listed
    · rw [posAt_modPos] at hi
      split at hi
      · next hr => rw [hr]; exact hi
      · exact hi
    · rw [posAt_modPos]
      split
      · next hr =>
        rw [hr]
        obtain ⟨hid, hv, -⟩ := h.consistent p
        exact ⟨hid, hv, fun _ => hp⟩
      · exact h.consistent r
  have hp' : ((s.modPos p (fun r => { r with claim := some x })).posAt p).state.holdsId = true := by
    rw [posAt_modPos_same]; exact hp
  unfold State.claimFor
  dsimp only
  split
  · exact hclaim
  · split
    · exact ((offer_calm ..).trans (modRecheck_calm ..)).steady.holdings hclaim
    · exact ((enter_calm hp' rfl).trans (notify_calm ..)).steady.holdings hclaim

theorem slotOutcome_keeps (s : State) (c : Coil) (p : Pos) (x : SensorId) (t : Byte) :
    Keeps s (s.slotOutcome c p x t) := by
  unfold State.slotOutcome
  split
  · exact confirm_keeps ..
  · split
    · exact bindOrReplace_keeps ..
    · split
      · exact moveTo_keeps ..
      · split
        · exact exchangeByClaim_keeps ..
        · exact claimFor_keeps ..

/-- R74 to R79: the outcome of one slot in use. -/
theorem slotOutcome_holdings {used : Pos → Bool} {s : State} (c : Coil) {p : Pos} (x : SensorId) (t : Byte)
    (h : holdingsOk used s) (hp : used p = true) : holdingsOk used (s.slotOutcome c p x t) := by
  unfold State.slotOutcome
  split
  · next hid => exact (confirm_calm (h.of_id hid).1 t).steady.holdings h
  · next hne =>
    split
    · next hn =>
      have htake := takeId_holdings (i := x) .classification h hp (fun q _ => id_ne_of_holder_none hn q)
      unfold State.bindOrReplace
      split <;> exact (notify_calm ..).steady.holdings htake
    · next q hq =>
      have hqid := id_of_holder hq
      obtain ⟨-, hqu⟩ := h.of_id hqid
      have hpq : p ≠ q := fun he => hne (he ▸ hqid)
      split
      · have hgive : holdingsOk used (s.giveUp q .unlearned .classification) :=
          giveUp_holdings _ h rfl (by simp [hqu]) (fun _ _ => rfl)
        refine (notify_calm ..).steady.holdings (takeId_holdings _ hgive hp (fun r _ hr => ?_))
        by_cases hrq : r = q
        · subst hrq; simp at hr
        · rw [giveUp_id_other s _ _ hrq] at hr
          exact hrq (h.unique r q x hr hqid)
      · next y hy =>
        split
        · exact (notify_calm ..).steady.holdings (exchange_holdings _ h hpq hp hqu)
        · exact claimFor_holdings c q x t h (h.of_id hy).1

theorem settleSlots_keeps (c : Coil) (t : Byte) (asg l : List (Pos × SensorId)) (s : State) :
    Keeps s (State.settleSlots c t asg l s) := by
  induction l generalizing s with
  | nil => exact Keeps.refl s
  | cons a rest ih =>
    obtain ⟨p, x⟩ := a
    unfold State.settleSlots
    split
    · exact exchangeWithin_keeps ..
    · exact (slotOutcome_keeps ..).trans (ih _)

/-- R74, R75: the assigned slots, all in use; an exchange within the coil needs both slots of it in use. -/
theorem settleSlots_holdings {used : Pos → Bool} (c : Coil) (t : Byte) (asg l : List (Pos × SensorId)) {s : State}
    (h : holdingsOk used s) (hl : ∀ a ∈ l, used a.1 = true)
    (hex : ∀ a ∈ l, ∀ b ∈ asg, b.1 ≠ a.1 → used (innerPos c) = true ∧ used (outerPos c) = true) :
    holdingsOk used (State.settleSlots c t asg l s) := by
  induction l generalizing s with
  | nil => exact h
  | cons a rest ih =>
    obtain ⟨p, x⟩ := a
    unfold State.settleSlots
    split
    · next hwithin =>
      have hb : ∃ b ∈ asg, b.1 ≠ p := by
        unfold State.exchangesWithin at hwithin
        split at hwithin
        · cases hwithin
        · obtain ⟨b, hb, ht⟩ := List.any_eq_true.mp hwithin
          simp only [Bool.and_eq_true, bne_iff_ne] at ht
          exact ⟨b, hb, ht.1.1⟩
      obtain ⟨b, hb, hbp⟩ := hb
      obtain ⟨hi, ho⟩ := hex (p, x) List.mem_cons_self b hb hbp
      exact (notify_calm ..).steady.holdings (exchange_holdings _ h (innerPos_ne_outerPos c) hi ho)
    · exact ih (slotOutcome_holdings c x t h (hl _ List.mem_cons_self))
        (fun a ha => hl a (List.mem_cons_of_mem _ ha)) (fun a ha => hex a (List.mem_cons_of_mem _ ha))

theorem failSlot_keeps (s : State) (p : Pos) (t : Byte) : Keeps s (s.failSlot p t) := by
  unfold State.failSlot
  dsimp only
  split
  · next h => exact ((unlocate_calm h).trans (notify_calm ..)).keeps
  · exact Keeps.refl s
  · exact Keeps.refl s
  · exact (giveUp_keeps ..).trans (notify_calm ..).keeps
  all_goals exact (notify_calm ..).keeps

theorem failSlot_holdings {used : Pos → Bool} {s : State} {p : Pos} (t : Byte) (h : holdingsOk used s)
    (hp : used p = true) : holdingsOk used (s.failSlot p t) := by
  unfold State.failSlot
  dsimp only
  split
  · next hl => exact ((unlocate_calm hl).trans (notify_calm ..)).steady.holdings h
  · exact h
  · exact h
  · exact (notify_calm ..).steady.holdings (giveUp_holdings _ h rfl (by simp [hp]) (fun _ _ => rfl))
  all_goals exact (notify_calm ..).steady.holdings h

theorem settleClaim_keeps (w : List SensorId) (t : Byte) (s : State) (p : Pos) :
    Keeps s (State.settleClaim w t s p) := by
  have hm (u : State) : Keeps u (u.modPos p (fun r => { r with claim := none })) := Keeps.modPos rfl
  unfold State.settleClaim
  split
  · exact Keeps.refl s
  · split
    · exact (enter_keeps ..).trans ((hm _).trans (notify_calm ..).keeps)
    · exact Keeps.refl s

/-- R80: the claim goes. -/
theorem dropClaim_calm (s : State) (p : Pos) : Calm s (s.modPos p (fun r => { r with claim := none })) :=
  Calm.modPos rfl ⟨rfl, rfl, Iff.rfl, .inr rfl⟩

theorem settleClaim_holdings {used : Pos → Bool} (w : List SensorId) (t : Byte) {s : State} (p : Pos)
    (h : holdingsOk used s) : holdingsOk used (State.settleClaim w t s p) := by
  unfold State.settleClaim
  split
  · exact h
  · next x hx =>
    have hp : (s.posAt p).state.holdsId = true := (h.consistent p).2.2 (by rw [hx]; rfl)
    split
    · exact ((enter_calm hp rfl).trans ((dropClaim_calm _ p).trans (notify_calm ..))).steady.holdings h
    · exact h

/-- A fold of operations that keep the bindings keeps them. -/
theorem holdingsOk.foldl {used : Pos → Bool} {α : Type} {f : State → α → State} (l : List α)
    (hf : ∀ s, ∀ x ∈ l, holdingsOk used s → holdingsOk used (f s x)) {s : State} (h : holdingsOk used s) :
    holdingsOk used (l.foldl f s) := by
  induction l generalizing s with
  | nil => exact h
  | cons x xs ih =>
    exact ih (fun s y hy => hf s y (List.mem_cons_of_mem x hy)) (hf s x List.mem_cons_self h)

/-- R80: the recheck flags of the coil's positions go. -/
theorem clearRechecks_calm (s : State) (f : Pos → Bool) :
    Calm s (s.mapPos (fun p r => if f p then { r with recheck := false } else r)) := by
  refine Calm.mapPos (fun p r => ?_) (fun p => ?_)
  · split <;> rfl
  · split <;> exact PosRec.holdsAs_refl _

theorem complete_keeps (s : State) (c : Coil) (w : List SensorId) (t : Byte) : Keeps s (s.complete c w t) :=
  (Keeps.foldl (settleClaim_keeps w t) _ s).trans (clearRechecks_calm _ _).keeps

theorem complete_holdings {used : Pos → Bool} {s : State} (c : Coil) (w : List SensorId) (t : Byte)
    (h : holdingsOk used s) : holdingsOk used (s.complete c w t) :=
  (clearRechecks_calm _ _).steady.holdings
    (holdingsOk.foldl positionsInOrder (fun _ p _ hu => settleClaim_holdings w t p hu) h)

theorem finalOutcome_keeps (s : State) (r : FireRec) : Keeps s (s.finalOutcome r) := by
  refine Keeps.foldl (fun u p => ?_) _ s
  split
  · exact confirm_keeps ..
  · exact failSlot_keeps ..

/-- R59: both slots of a coil lie on its axle. -/
theorem axleOf_slots : ∀ c : Coil,
    axleOf (innerPos c) = some (coilAxle c) ∧ axleOf (outerPos c) = some (coilAxle c) := by decide

/-- R59: the outer slots are nLO and nRO. -/
theorem slotOf_outerPos : ∀ c : Coil, slotOf (outerPos c) = 0 ∨ slotOf (outerPos c) = 3 := by decide

/-- R59: the positions that a coil serves are in use. -/
theorem inUse_of_servedBy {layout : Word} {c : Coil} {p : Pos} (h : p ∈ servedBy layout c) :
    inUse layout p = true := by
  have hinner := axleOf_slots c
  have houter := slotOf_outerPos c
  unfold servedBy at h
  split at h
  · cases h
  · next hk =>
    obtain rfl := List.mem_singleton.mp h
    unfold inUse
    simp only [hinner.2, hk]
    obtain ho | ho := houter <;> simp [ho]
  · next hk =>
    have hp : p = innerPos c ∨ p = outerPos c := by simpa using h
    unfold inUse
    obtain rfl | rfl := hp
    · simp only [hinner.1, hk]
    · simp only [hinner.2, hk]

/-- R71: an assigned slot is one that the coil serves. -/
theorem servedBy_of_assigned {layout : Word} {r : FireRec} {p : Pos} (h : p ∈ assignedSlots layout r) :
    p ∈ servedBy layout r.coil := (List.mem_filter.mp h).1

/-- R73: the slot that a partial answer confirms holds an ID. -/
theorem id_of_partialSlot {s : State} {r : FireRec} {p : Pos} (h : s.partialSlot r = some p) :
    ∃ i, (s.posAt p).id = some i := by
  unfold State.partialSlot at h
  split at h
  · next x _ _ =>
    have hp := List.find?_some h
    exact ⟨x.id, by simpa using hp⟩
  · cases h

/-- R73: the slots of a final classification, in their order; the slot that a partial answer confirms still holds its ID
when its turn comes, since a failure of another slot leaves it. -/
theorem finalOutcome_foldl_holdings {used : Pos → Bool} (keep : Option Pos) (t : Byte) (l : List Pos) {s : State}
    (h : holdingsOk used s) (hl : ∀ p ∈ l, used p = true) (hnodup : l.Nodup)
    (hk : ∀ p ∈ l, keep = some p → (s.posAt p).state.holdsId = true) :
    holdingsOk used (l.foldl (fun u p => if keep = some p then u.confirm p t else u.failSlot p t) s) := by
  induction l generalizing s with
  | nil => exact h
  | cons p ps ih =>
    obtain ⟨hp, hps⟩ := List.nodup_cons.mp hnodup
    rw [List.foldl_cons]
    have hlater (u : State) (hu : SteadyBut (· = p) s u) :
        ∀ q ∈ ps, keep = some q → (u.posAt q).state.holdsId = true := by
      intro q hq hkq
      rw [(hu.holds q (fun he => hp (he ▸ hq))).2.1]
      exact hk q (List.mem_cons_of_mem p hq) hkq
    split
    · next hkp =>
      have hc := confirm_calm (hk p List.mem_cons_self hkp) t
      exact ih (hc.steady.holdings h) (fun q hq => hl q (List.mem_cons_of_mem p hq)) hps
        (hlater _ (hc.steady.mono (fun _ h => h.elim)))
    · have hfail : SteadyBut (· = p) s (s.failSlot p t) := by
        unfold State.failSlot
        dsimp only
        split
        · next hst => exact ((unlocate_calm hst).trans (notify_calm ..)).steady.mono (fun _ h => h.elim)
        · exact (Steady.refl s).mono (fun _ h => h.elim)
        · exact (Steady.refl s).mono (fun _ h => h.elim)
        · exact (giveUp_steadyBut ..).trans ((notify_calm ..).steady.mono (fun _ h => h.elim))
        all_goals exact (notify_calm ..).steady.mono (fun _ h => h.elim)
      exact ih (failSlot_holdings t h (hl p List.mem_cons_self)) (fun q hq => hl q (List.mem_cons_of_mem p hq)) hps
        (hlater _ hfail)

/-- R59: the slots that a coil serves are different positions. -/
theorem servedBy_nodup (layout : Word) (c : Coil) : (servedBy layout c).Nodup := by
  unfold servedBy
  split
  · exact List.nodup_nil
  · exact List.nodup_singleton _
  · simp [innerPos_ne_outerPos c]

theorem judgeRecord_keeps (s : State) (r : FireRec) : Keeps s (s.judgeRecord r) := by
  unfold State.judgeRecord
  split
  · exact (settleSlots_keeps ..).trans (complete_keeps ..)
  · split
    · exact (offer_calm ..).keeps
    · exact (finalOutcome_keeps ..).trans (complete_keeps ..)

/-- R71: a full assignment assigns the outer slot, or both slots of a TWIN axle. -/
theorem fullAssignment_slots {layout : Word} {margin : Nat} {r : FireRec} {full : List (Pos × SensorId)}
    (h : fullAssignment layout margin r = some full) :
    (∃ x, full = [(outerPos r.coil, x)]) ∨ axleKind layout (coilAxle r.coil) = .twin := by
  unfold fullAssignment at h
  split at h
  · cases h
  · split at h
    · cases h; exact .inl ⟨_, rfl⟩
    · next hk _ => exact .inr hk
    · cases h

theorem judgeRecord_holdings {s : State} (r : FireRec) (h : holdingsOk (inUse s.layout) s) :
    holdingsOk (inUse s.layout) (s.judgeRecord r) := by
  unfold State.judgeRecord
  split
  · next full hfull =>
    refine complete_holdings _ _ _ (settleSlots_holdings _ _ _ _ h (fun a ha => ?_) (fun a ha b hb hab => ?_))
    · exact inUse_of_servedBy (servedBy_of_assigned (by simpa using (List.mem_filter.mp ha).2))
    · obtain ⟨x, hx⟩ | hk := fullAssignment_slots hfull
      · have ha' := (List.mem_filter.mp ha).1
        have hb' := (List.mem_filter.mp hb).1
        rw [hx, List.mem_singleton] at ha' hb'
        exact absurd (by rw [ha', hb']) hab
      · exact ⟨inUse_of_servedBy (c := r.coil) (by simp [servedBy, hk]),
          inUse_of_servedBy (c := r.coil) (by simp [servedBy, hk])⟩
  · split
    · exact (offer_calm ..).steady.holdings h
    · refine complete_holdings _ _ _ ?_
      refine finalOutcome_foldl_holdings (s.partialSlot r) r.tag (assignedSlots s.layout r) h
        (fun p hp => inUse_of_servedBy (servedBy_of_assigned hp)) ((servedBy_nodup _ _).filter _) (fun p _ hk => ?_)
      obtain ⟨i, hi⟩ := id_of_partialSlot hk
      exact (h.of_id hi).1

theorem classify_all (s : State) (r : FireRec) : KeepsAll s (s.classify r) := by
  refine ⟨(judgeRecord_keeps s r).trans (dropRecords_calm _ _).keeps, fun h => ?_⟩
  rw [layout_of_base (classify_base s r)]
  exact (dropRecords_calm _ _).steady.holdings (judgeRecord_holdings r h)

/-! ### Sources of requests (R82 to R84) -/

theorem offerRechecks_calm (s : State) : Calm s s.offerRechecks := offerEach_calm ..
theorem offerAttaches_calm (s : State) : Calm s s.offerAttaches := offerEach_calm ..

theorem offerCommands_calm (s : State) (cs : List Coil) (t : Byte) : Calm s (s.offerCommands cs t).1 := by
  unfold State.offerCommands
  split
  · exact Calm.refl s
  · exact offerEach_calm ..

end Sys2Proof.Machine
end

section
/-! The intake unit, the sweep unit, state control, the settings snoop and the memory path keep the invariants. With the
principle for commands this settles the invariants of the outbound queue, the outputs, the lists and the bindings. -/

namespace Sys2Proof.Machine
open Sys2Proof.Claim

/-- An operation that leaves the records, the candidates and the layout alone. -/
theorem KeepsAll.of_keeps {s t : State} (k : Keeps s t) (hp : t.positions = s.positions)
    (hc : t.candidates = s.candidates) (hl : t.layout = s.layout) : KeepsAll s t :=
  (Calm.mk k (Steady.of_eq hp hc)).all hl

/-- The records, the candidates and the layout of another result whose bindings are known. -/
theorem KeepsAll.with_keeps {s t u : State} (h : KeepsAll s t) (k : Keeps s u) (hp : u.positions = t.positions)
    (hc : u.candidates = t.candidates) (hl : u.layout = t.layout) : KeepsAll s u :=
  ⟨k, fun x => hl ▸ (Steady.of_eq hp hc).holdings (h.bindings x)⟩

/-! ### Operations that leave the recent list alone -/

@[simp] theorem offer_intake (s : State) (r : Request) : (s.offer r).intake = s.intake := rfl

@[simp] theorem locateSilent_intake (s : State) (p : Pos) : (s.locateSilent p).intake = s.intake := by
  unfold State.locateSilent
  repeat' split
  all_goals rfl

@[simp] theorem beginSilent_intake (s : State) (p : Pos) : (s.beginSilent p).intake = s.intake :=
  congrArg Tables.intake (beginSilent_tables s p)

@[simp] theorem endSilent_intake (s : State) (p : Pos) : (s.endSilent p).intake = s.intake :=
  congrArg Tables.intake (endSilent_tables s p)

@[simp] theorem evaluateSample_intake (s : State) (p : Pos) (x : Sample) : (s.evaluateSample p x).intake = s.intake :=
  congrArg Tables.intake (evaluateSample_tables s p x)

@[simp] theorem expireIfReached_intake (s : State) (p : Pos) : (s.expireIfReached p).intake = s.intake := by
  unfold State.expireIfReached State.expire
  dsimp only
  repeat' split
  all_goals simp

@[simp] theorem setInterval_intake (s : State) (p : Pos) (e : Nat) : (s.setInterval p e).intake = s.intake := by
  unfold State.setInterval
  split <;> simp

@[simp] theorem clampInterval_intake (s : State) (p : Pos) : (s.clampInterval p).intake = s.intake := by
  unfold State.clampInterval
  split <;> simp

@[simp] theorem gapTest_intake (s : State) (p : Pos) (a : Time) : (s.gapTest p a).intake = s.intake := by
  unfold State.gapTest State.takeInterval State.takeLongGap
  dsimp only
  repeat' split
  all_goals simp

@[simp] theorem track_intake (s : State) (p : Pos) (k : TelegramKind) (a : Time) :
    (s.track p k a).intake = s.intake := by
  unfold State.track State.arm
  dsimp only
  split <;> split <;> simp

@[simp] theorem applySample_intake (s : State) (p : Pos) (t : RecentEntry) :
    (s.applySample p t).intake = s.intake := by
  unfold State.applySample State.fillSample
  dsimp only
  repeat' split
  all_goals simp

@[simp] theorem offerEach_intake (s : State) (cs : List Coil) (u : Purpose) (t : Byte) :
    (s.offerEach cs u t).intake = s.intake :=
  foldl_view State.intake (fun t' c => t'.offer { coil := c, purpose := u, attempts := 0, tag := t })
    (fun _ _ => rfl) cs s

@[simp] theorem receiveCandidate_intake (s : State) (t : RecentEntry) : (s.receiveCandidate t).intake = s.intake := by
  unfold State.receiveCandidate State.announcePersistent
  dsimp only
  repeat' split
  all_goals simp

@[simp] theorem offerTriggered_intake (s : State) (t : RecentEntry) : (s.offerTriggered t).intake = s.intake := by
  unfold State.offerTriggered State.offerAnswer
  repeat' split
  all_goals rfl

@[simp] theorem route_intake (s : State) (t : RecentEntry) : (s.route t).intake = s.intake := by
  unfold State.route
  repeat' split
  all_goals simp

/-! ### The intake unit (chapter 2) -/

/-- The intake unit holds no binding: its recent list decides. -/
theorem Calm.intake {s : State} {x : Intake} (h : recentOk s.intake.recent → recentOk x.recent) :
    Calm s { s with intake := x } := ⟨{ recent := h }, Steady.of_eq rfl rfl⟩

theorem followEnables_calm (s : State) : Calm s s.followEnables := Calm.intake id
theorem modLane_calm (s : State) (l : Lane) (f : LaneRec → LaneRec) : Calm s (s.modLane l f) := Calm.intake id

theorem takeLaneMask_calm (s : State) : Calm s s.takeLaneMask := (followEnables_calm s).trans (Calm.intake id)

theorem offerTriggered_calm (s : State) (t : RecentEntry) : Calm s (s.offerTriggered t) := by
  unfold State.offerTriggered
  split
  · exact offerAnswer_calm ..
  · exact Calm.refl s

/-- R6, R43: the candidate list receives a telegram of an ID that no position holds. -/
theorem receiveCandidate_holdings {used : Pos → Bool} {s : State} {t : RecentEntry} (h : holdingsOk used s)
    (hn : s.holder t.payload.id = none) : holdingsOk used (s.receiveCandidate t) := by
  obtain ⟨-, hpos, hl⟩ := receiveCandidate_keeps s t
  refine ⟨fun p => hpos p ▸ h.consistent p, fun p q i hp hq => ?_, fun p i hp hi => ?_⟩
  · rw [hpos] at hp hq
    exact h.unique p q i hp hq
  · rw [hpos] at hp
    obtain hi | rfl := hl i hi
    · exact h.unlisted p i hp hi
    · exact id_ne_of_holder_none hn p hp

theorem route_all (s : State) (t : RecentEntry) : KeepsAll s (s.route t) := by
  have hl : (s.route t).layout = s.layout := layout_of_base (route_base s t)
  unfold State.route at *
  split
  · split
    · exact KeepsAll.refl s
    · exact ((applySample_calm ..).trans (offerTriggered_calm ..)).all_of_base (by simp)
  · next hn =>
    refine ⟨(receiveCandidate_keeps s t).1.trans (offerTriggered_calm ..).keeps, fun h => ?_⟩
    rw [layout_of_base (s := s) (by simp)]
    exact (offerTriggered_calm ..).steady.holdings (receiveCandidate_holdings h hn)

theorem settleHead_all (s : State) : KeepsAll s s.settleHead := by
  unfold State.settleHead
  split
  · exact KeepsAll.refl s
  · next t rest hrec =>
    have h : Calm s { s with intake := { s.intake with recent := rest } } := by
      refine Calm.intake (fun h => ?_)
      rw [hrec] at h
      obtain ⟨hlen, hnodup⟩ := h
      rw [List.map_cons, List.nodup_cons] at hnodup
      exact ⟨Nat.le_of_succ_le hlen, hnodup.2⟩
    exact (h.all rfl).trans (route_all _ t)

/-- R39: the head leaves the recent list. -/
theorem settleHead_recent (s : State) : s.settleHead.intake.recent = s.intake.recent.tail := by
  unfold State.settleHead
  split
  · next h => rw [h]; rfl
  · next t rest h => rw [route_intake, h]; rfl

theorem settleDue_all (s : State) : KeepsAll s s.settleDue := by
  unfold State.settleDue
  split
  · exact KeepsAll.refl s
  · split
    · exact settleHead_all s
    · exact KeepsAll.refl s

@[simp] theorem countGood_recent (s : State) (l : Lane) : (s.countGood l).intake.recent = s.intake.recent := by
  unfold State.countGood
  dsimp only
  split <;> simp [State.modLane]

theorem countGood_calm (s : State) (l : Lane) : Calm s (s.countGood l) := by
  unfold State.countGood
  dsimp only
  split
  · exact (modLane_calm s l _).trans (notify_calm ..)
  · exact modLane_calm s l _

/-- R37: an entry of the recent list has the key of a payload exactly when the model's test says so. -/
theorem keyOf_iff (e : RecentEntry) (t : Payload) : e.keyOf t = true ↔ e.key = (t.id, t.seq) := by
  simp [RecentEntry.keyOf, RecentEntry.key]

theorem mergeFrame_calm (s : State) (t : Payload) (l : Lane) (v : BitVec 8) : Calm s (s.mergeFrame t l v) := by
  refine Calm.intake (fun h => ?_)
  have hkeys : (s.intake.recent.map (fun e => if e.keyOf t then e.merge l v else e)).map RecentEntry.key =
      s.intake.recent.map RecentEntry.key := by
    rw [List.map_map]
    refine List.map_congr_left fun e _ => ?_
    simp only [Function.comp]
    split <;> rfl
  exact ⟨by simpa using h.1, hkeys ▸ h.2⟩

/-- R37, R39: a list with a free place takes an entry whose key it does not hold. -/
theorem recentOk_append {l : List RecentEntry} {e : RecentEntry} (h : recentOk l) (hlen : l.length < 24)
    (hnew : l.any (fun x => x.keyOf e.payload) = false) : recentOk (l ++ [e]) := by
  refine ⟨by simp; omega, ?_⟩
  rw [List.map_append, List.nodup_append]
  refine ⟨h.2, List.nodup_singleton _, fun x hx y hy hxy => ?_⟩
  obtain ⟨d, hd, rfl⟩ := List.mem_map.mp hx
  obtain rfl : y = e.key := by simpa using hy
  have hany := List.any_eq_false.mp hnew d hd
  exact hany ((keyOf_iff d e.payload).mpr hxy)

/-- R39: a new entry joins the tail; the head of a full list is routed first. -/
theorem enterFrame_all {s : State} {t : Payload} (l : Lane) (v : BitVec 8) (a : Time)
    (hnew : s.intake.recent.any (fun e => e.keyOf t) = false) : KeepsAll s (s.enterFrame t l v a) := by
  unfold State.enterFrame Config.recentPlaces
  dsimp only
  split
  · next hlt => exact (Calm.intake (fun h => recentOk_append h hlt hnew)).all rfl
  · next hge =>
    have hall := settleHead_all s
    have hk : Keeps s { s.settleHead with intake := { s.settleHead.intake with
        recent := s.settleHead.intake.recent ++ [newEntry t l v a] } } := {
      hall.keeps with
      recent := fun h => by
        have htail := hall.keeps.recent h
        rw [settleHead_recent] at htail
        rw [settleHead_recent]
        refine recentOk_append htail ?_ ?_
        · have hlen := h.1
          rw [List.length_tail]
          omega
        · rw [List.any_eq_false] at hnew ⊢
          exact fun e he => hnew e (List.mem_of_mem_tail he) }
    exact hall.with_keeps hk rfl rfl rfl

theorem takeDelivery_all (s : State) (l : Lane) (bytes : List Byte) (ended : Time) (onFirst : Bool) :
    KeepsAll s (s.takeDelivery l bytes ended onFirst) := by
  have hbad : KeepsAll s (s.countBad l) := (modLane_calm s l _).all rfl
  unfold State.takeDelivery
  split
  · exact KeepsAll.refl s
  · split
    · exact hbad
    · split
      · exact hbad
      · have hgood : KeepsAll s (s.countGood l) := (countGood_calm s l).all_of_base (by simp)
        unfold State.takeGoodFrame
        dsimp only
        split
        · exact hgood.trans ((mergeFrame_calm ..).all_of_base (by simp))
        · next hany => exact hgood.trans (enterFrame_all _ _ _ (by simpa using hany))

theorem endSettling_all (s : State) (l : Lane) : KeepsAll s (s.endSettling l) := by
  unfold State.endSettling
  split
  · split
    · exact (modLane_calm s l _).all rfl
    · exact KeepsAll.refl s
  all_goals exact KeepsAll.refl s

/-! ### The outbound queue (R167 to R170) -/

/-- R169: a WRITE that coalesces or finds a place. -/
theorem queueWrite_ok {q : List QEntry} {o : Nat} (d : Word) (g : Origin)
    (hroom : (pendingWrite q o).isSome = true ∨ q.length < 48) (h : queueOk q) : queueOk (queueWrite q o d g) := by
  rw [queueOk_iff] at h ⊢
  refine ⟨?_, queueWrite_nodup q o d g h.2⟩
  rw [queueWrite_length]
  split
  · exact h.1
  · next hp =>
    have := hroom.resolve_left hp
    omega

/-- R168: a READ that finds a place. -/
theorem queueRead_ok {q : List QEntry} (o : Nat) (g : Origin) (hroom : q.length < 48) (h : queueOk q) :
    queueOk (q ++ [{ access := .read, offset := o, origin := g }]) := by
  rw [queueOk_iff] at h ⊢
  exact ⟨by simp; omega, by rw [writeOffsets_read]; exact h.2⟩

/-- R167, R169: a part of the queue is as well formed as the queue. -/
theorem queueOk_sublist {q r : List QEntry} (h : queueOk q) (k : r.Sublist q) : queueOk r := by
  rw [queueOk_iff] at h ⊢
  exact ⟨k.length_le.trans h.1, h.2.sublist ((k.filter _).map _)⟩

/-- R168: a producer is admitted only below 40 entries. -/
theorem length_of_roomForProducer {s : State} (h : s.roomForProducer = true) : s.path.queue.length < 40 := by
  have hfree : 8 < 48 - s.path.queue.length := of_decide_eq_true (Bool.and_eq_true _ _ |>.mp h).2
  omega

/-- The memory path holds no binding: its queue decides. -/
theorem KeepsAll.path {s : State} {x : Path} (h : queueOk s.path.queue → queueOk x.queue) :
    KeepsAll s { s with path := x } := KeepsAll.of_keeps { queue := h } rfl rfl rfl

/-- Nothing of the sweep unit is read by the invariants. -/
theorem KeepsAll.sweep (s : State) (x : Sweep) : KeepsAll s { s with sweep := x } :=
  KeepsAll.of_keeps {} rfl rfl rfl

theorem addWrite_all {s : State} {o : Nat} (d : Word) (g : Origin)
    (h : (pendingWrite s.path.queue o).isSome = true ∨ s.path.queue.length < 48) : KeepsAll s (s.addWrite o d g) :=
  KeepsAll.of_keeps { queue := queueWrite_ok d g h } rfl rfl rfl

/-! ### The sweep unit (chapter 7) -/

theorem discardTrend_all (s : State) : KeepsAll s s.discardTrend :=
  KeepsAll.of_keeps { queue := fun h => queueOk_sublist h List.filter_sublist } rfl rfl rfl

theorem finishTrend_all (s : State) (t : TrendRead) : KeepsAll s (s.finishTrend t) := by
  unfold State.finishTrend State.completeTrend
  split
  · split
    · exact KeepsAll.refl s
    · have h (q : Int) : Calm s (s.modPos t.position (fun r => { r with leak := some q })) :=
        Calm.modPos rfl (PosRec.holdsAs_refl _)
      exact ((h _).trans (evaluate_calm ..)).all_of_base (by simp)
  · exact KeepsAll.refl s

theorem trendResult_all (s : State) (o : Nat) (w : Word) : KeepsAll s (s.trendResult o w) :=
  (KeepsAll.sweep s _).trans (KeepsAll.foldl finishTrend_all _ _)

theorem offerTrend_all (s : State) (o : Nat) : KeepsAll s (s.offerTrend o) := by
  unfold State.offerTrend
  split
  · exact trendResult_all ..
  · split
    · next hroom =>
      have hlen := length_of_roomForProducer (Bool.and_eq_true _ _ |>.mp hroom).2
      exact KeepsAll.path (queueRead_ok _ _ (by omega))
    · exact KeepsAll.sweep ..

theorem setUpTrend_all (s : State) : KeepsAll s s.setUpTrend := by
  unfold State.setUpTrend
  dsimp only
  split
  · exact (KeepsAll.sweep s _).trans (KeepsAll.foldl offerTrend_all _ _)
  · exact KeepsAll.refl s

/-- The words that an owner of the alert outputs or of the layout reads. -/
def SettingWord.watched (w : SettingWord) : Prop := w = .axleLayout ∨ w = .ackLimit ∨ w = .escAction

/-- A copy that the escalation timer does not read. -/
theorem setCopy_escalationArmed {s : State} {w : SettingWord} (v : Word) (ha : w ≠ .ackLimit) (he : w ≠ .escAction) :
    (s.setCopy w v).escalationArmed = s.escalationArmed := by
  unfold State.escalationArmed State.setting
  rw [setCopy_copy_other _ _ _ _ ha.symm, setCopy_copy_other _ _ _ _ he.symm]

theorem setCopy_keeps {s : State} {w : SettingWord} (v : Word) (ha : w ≠ .ackLimit) (he : w ≠ .escAction) :
    Keeps s (s.setCopy w v) := { outputs := fun h => by rw [setCopy_escalationArmed v ha he]; exact h }

/-- R175: a copy that no invariant reads. -/
theorem setCopy_all {s : State} {w : SettingWord} (v : Word) (h : ¬ w.watched) : KeepsAll s (s.setCopy w v) := by
  simp only [SettingWord.watched, not_or] at h
  exact KeepsAll.of_keeps (setCopy_keeps v h.2.1 h.2.2) rfl rfl (setCopy_copy_other _ _ _ _ (fun e => h.1 e.symm))

theorem restartHistory_all (s : State) : KeepsAll s s.restartHistory := by
  have hlag (u : State) (v : Word) : KeepsAll u (u.setCopy .viewLag v) := setCopy_all v (by simp [SettingWord.watched])
  have h := discardTrend_all s
  unfold State.restartHistory
  dsimp only
  split
  · exact (h.trans (hlag s.discardTrend _)).trans (KeepsAll.sweep _ _)
  · exact h.trans (KeepsAll.sweep _ _)

theorem sweepExpires_all (s : State) : KeepsAll s s.sweepExpires := by
  have hstart (u : State) : KeepsAll u u.startPublication :=
    (discardTrend_all u).trans (((ageCandidates_calm _).all rfl).trans (KeepsAll.sweep _ _))
  unfold State.sweepExpires
  dsimp only
  split
  · exact (KeepsAll.sweep s _).trans (hstart _)
  · exact (KeepsAll.sweep s _).trans (KeepsAll.sweep _ _)

theorem addGroup_all {s : State} (p : Publication) (ws : List KeptWrite) (h : s.path.queue.length < 40) :
    KeepsAll s (s.addGroup p ws) := by
  have hroom : ∀ u : State, u.path = s.path → u.path.queue.length < 48 := by
    intro u hu
    rw [hu]
    omega
  unfold State.addGroup
  dsimp only
  split
  · exact KeepsAll.sweep ..
  · exact (KeepsAll.sweep ..).trans (addWrite_all _ _ (.inr (hroom _ rfl)))

theorem captureGroup_all {s : State} (p : Publication) (h : s.path.queue.length < 40) :
    KeepsAll s (s.captureGroup p) := by
  have hmissed (q : Pos) : KeepsAll s (s.modPos q (fun r => { r with missed := 0 })) :=
    (Calm.modPos rfl (PosRec.holdsAs_refl _)).all rfl
  have hcounts (x : Intake) (n : Nat) (hx : x.recent = s.intake.recent) :
      KeepsAll s { s with intake := x, trigger := { s.trigger with stale := n } } :=
    KeepsAll.of_keeps { recent := fun hr => by rw [hx]; exact hr } rfl rfl rfl
  have hquiet (u : State) (ls : List Lane) : KeepsAll u (u.announceQuiet ls) :=
    KeepsAll.foldl (fun t l => (notify_calm ..).all_of_base (by simp)) ls u
  unfold State.captureGroup State.capturePosition State.captureCandidates State.captureLimits State.captureHeader
  dsimp only
  split
  · exact (hmissed _).trans (addGroup_all _ _ h)
  · split
    · exact addGroup_all _ _ h
    · split
      · exact addGroup_all _ _ h
      · split
        · exact ((hcounts { s.intake with lanes := _, merged := 0 } 0 rfl).trans (addGroup_all _ _ h)).trans (hquiet _ _)
        · exact KeepsAll.refl s

theorem captureNext_all (s : State) : KeepsAll s s.captureNext := by
  unfold State.captureNext
  split
  · exact KeepsAll.refl s
  · split
    · next h =>
      simp only [Bool.and_eq_true] at h
      exact captureGroup_all _ (length_of_roomForProducer h.1.2)
    · exact KeepsAll.refl s

/-- R139, R140: what a flip attempt does before it sets up the trend reads. -/
def State.attempted (s : State) (p : Publication) : State :=
  let forced := s.sweep.mustOverride
  let s := { s with sweep := s.sweep.advanceHead p (s.setting .historyDepth) }
  let s := s.mapPos (fun _ r => { r with leak := none })
  let s := { s with sweep := s.sweep.decide }
  let s := if forced then s.notify .holdOverridden none 0 0 (BitVec.ofNat 32 p.number.toNat) else s
  { s with sweep := { s.sweep with publication := none } }

theorem flipAttempt_eq (s : State) (p : Publication) :
    s.flipAttempt p = if p.restarted then s.attempted p else (s.attempted p).setUpTrend := rfl

theorem attempted_all (s : State) (p : Publication) : KeepsAll s (s.attempted p) := by
  have hleak (u : State) : KeepsAll u (u.mapPos (fun _ r => { r with leak := none })) :=
    (Calm.mapPos (f := fun _ r => { r with leak := none }) (fun _ _ => rfl) (fun _ => PosRec.holdsAs_refl _)).all rfl
  have hforced (u : State) (b : Bool) (v : Word) :
      KeepsAll u (if b then u.notify .holdOverridden none 0 0 v else u) := by
    split
    · exact (notify_calm ..).all_of_base (by simp)
    · exact KeepsAll.refl u
  exact (KeepsAll.sweep s _).trans ((hleak _).trans ((KeepsAll.sweep _ _).trans ((hforced _ _ _).trans
    (KeepsAll.sweep _ _))))

theorem tryFlip_all (s : State) : KeepsAll s s.tryFlip := by
  unfold State.tryFlip
  split
  · exact KeepsAll.refl s
  · next p _ =>
    split
    · rw [flipAttempt_eq]
      split
      · exact attempted_all s p
      · exact (attempted_all s p).trans (setUpTrend_all _)
    · exact KeepsAll.refl s

theorem takeHold_all (s : State) (v : Word) : KeepsAll s (s.takeHold v) := by
  rw [takeHold_eq_sweep]
  exact KeepsAll.sweep ..

theorem stopSweeps_all (s : State) : KeepsAll s s.stopSweeps := (KeepsAll.sweep s _).trans (restartHistory_all _)

/-! ### State control (chapter 8) -/

/-- State control holds no binding: its parked list decides. -/
theorem KeepsAll.control {s : State} {x : Control} (h : s.control.parked.length ≤ 16 → x.parked.length ≤ 16) :
    KeepsAll s { s with control := x } := KeepsAll.of_keeps { parked := h } rfl rfl rfl

theorem followEnables_all (s : State) : KeepsAll s s.followEnables := (followEnables_calm s).all rfl

theorem placeNotice_all (s : State) (n : Notice) : KeepsAll s (s.placeNotice n) :=
  KeepsAll.of_keeps (placeNotice_keeps s n) (congrArg Vehicle.positions (placeNotice_vehicle s n))
    (congrArg Vehicle.candidates (placeNotice_vehicle s n)) (layout_of_base (placeNotice_base s n))

theorem enterRun_all (s : State) : KeepsAll s s.enterRun := by
  have hparked (u : State) : KeepsAll u u.writeParked :=
    (KeepsAll.control (fun _ => Nat.zero_le _)).trans (KeepsAll.foldl placeNotice_all _ _)
  have hquiet (u : State) : KeepsAll u u.clearQuietCounts := by
    unfold State.clearQuietCounts
    refine (Calm.intake ?_).all rfl
    exact id
  have hoffers (u : State) : KeepsAll u u.offerOnEntry := by
    have htrl : KeepsAll u (if u.control.refTrl then u.offerAttaches else u) := by
      split
      · exact (offerAttaches_calm u).all_of_base (by simp)
      · exact KeepsAll.refl u
    have hign (v : State) : KeepsAll v (if v.control.refIgn then v.offerRechecks else v) := by
      split
      · exact (offerRechecks_calm v).all_of_base (by simp)
      · exact KeepsAll.refl v
    exact htrl.trans (hign _)
  exact (KeepsAll.control (s := s) (x := { s.control with op := .run }) id).trans ((hparked _).trans
    ((followEnables_all _).trans ((hquiet _).trans (((armAll_calm _).all rfl).trans
      ((KeepsAll.sweep _ _).trans (hoffers _))))))

theorem startWindow_all (s : State) : KeepsAll s s.startWindow := by
  have h (x : Control) (hx : x.parked = s.control.parked) : KeepsAll s ({ s with control := x } : State).followEnables :=
    (KeepsAll.control (fun hp => by rw [hx]; exact hp)).trans (followEnables_all _)
  exact h _ rfl

/-- The control block and the notice writer, with the parked list as it stands. -/
theorem KeepsAll.controlNotices {s : State} {x : Control} (n : NoticeWriter) (h : x.parked = s.control.parked) :
    KeepsAll s { s with control := x, notices := n } :=
  KeepsAll.of_keeps { parked := fun hp => by rw [h]; exact hp } rfl rfl rfl

theorem enterWatch_all (s : State) : KeepsAll s s.enterWatch := by
  have h (x : Control) (n : NoticeWriter) (hx : x.parked = s.control.parked) :
      KeepsAll s ({ s with control := x, notices := n } : State).startWindow :=
    (KeepsAll.controlNotices n hx).trans (startWindow_all _)
  exact h _ _ rfl

theorem leaveWatch_all (s : State) : KeepsAll s s.leaveWatch := KeepsAll.controlNotices _ rfl

theorem abandonRun_all (s : State) : KeepsAll s s.abandonRun :=
  (((leaveRunPositions_calm s).trans (dropRecords_calm _ (fun _ => true))).trans
    ((Calm.queue (List.nil_sublist _)).trans (cancelDeadlines_calm _))).all_of_base (by simp [base_trigger])

theorem hostDown_all (s : State) : KeepsAll s s.hostDown := by
  have hrun : KeepsAll s (if s.control.op = .run then s.abandonRun else s) := by
    split
    · exact abandonRun_all s
    · exact KeepsAll.refl s
  have hpath (u : State) : KeepsAll u { u with path := u.path.emptied, notices := u.notices.hostDown } :=
    KeepsAll.of_keeps { queue := fun h => queueOk_sublist h (List.nil_sublist _) } rfl rfl rfl
  exact hrun.trans ((stopSweeps_all _).trans ((hpath _).trans (enterWatch_all _)))

end Sys2Proof.Machine
end

section
/-! The settings snoop and the memory path keep the invariants (chapters 9 and 10), and with them every command: the
invariants of the outbound queue, the outputs, the lists and the bindings are settled here. -/

namespace Sys2Proof.Machine
open Sys2Proof.Claim

/-! ### The settings snoop (chapter 10) -/

/-- Nothing of the evaluation unit but the lamp and the escalation timer is read by the invariants. -/
theorem KeepsAll.eval {s : State} {x : Eval} (hl : x.lamp = s.eval.lamp) (he : x.escalation = s.eval.escalation) :
    KeepsAll s { s with eval := x } :=
  KeepsAll.of_keeps { outputs := fun h => by rw [hl, he]; exact h } rfl rfl rfl

theorem restartIfChanged_all (s : State) (o n : Word) : KeepsAll s (s.restartIfChanged o n) := by
  unfold State.restartIfChanged
  split
  · exact KeepsAll.refl s
  · exact restartHistory_all s

/-- What the owner of a word does that neither the alert outputs nor the layout read. -/
theorem applySetting_all {s : State} {w : SettingWord} (o n : Word) (h : ¬ w.watched) :
    KeepsAll s (s.applySetting w o n) := by
  have hbody (b : Bool) : KeepsAll s (s.takeBody b) := by
    unfold State.takeBody
    split
    · exact KeepsAll.refl s
    · exact KeepsAll.eval rfl rfl
  have hclamp (u : State) : KeepsAll u u.clampAll := (clampAll_calm u).all_of_base (by simp)
  simp only [SettingWord.watched, not_or] at h
  unfold State.applySetting
  split
  case h_1 => exact absurd rfl h.1
  case h_2 => exact (takeLaneMask_calm s).all_of_base (by simp)
  case h_3 => exact (hbody _).trans (hclamp _)
  case h_4 => exact hclamp s
  case h_5 => exact hclamp s
  case h_6 => exact (dropDrifts_calm s).all rfl
  case h_7 => exact (recomputeDeadlines_calm s).all_of_base (by simp)
  case h_8 => exact absurd rfl h.2.1
  case h_9 => exact absurd rfl h.2.2
  case h_10 => exact restartIfChanged_all ..
  case h_11 => exact restartIfChanged_all ..
  all_goals exact KeepsAll.refl s

theorem refuseSetting_all (s : State) (o : Nat) (v : Word) : KeepsAll s (s.refuseSetting o v) := by
  have h (x : Option Nat) : KeepsAll s { s with snoop := { s.snoop with refusedOffset := x } } :=
    KeepsAll.of_keeps {} rfl rfl rfl
  exact (h _).trans ((notify_calm ..).all_of_base (by simp))

/-- R175: a word that the owner takes: the alert outputs are brought up to date after the words that they read, and the
layout brings the positions into the new one. -/
theorem takeSetting_all (s : State) (w : SettingWord) (v : Word) : KeepsAll s (s.takeSetting w v) := by
  have houtputs (x : SettingWord) (hx : SettingWord.axleLayout ≠ x) :
      KeepsAll s ((s.setCopy x v).refreshOutputs false) :=
    KeepsAll.of_keeps { outputs := fun _ => refreshOutputs_show _ false } rfl rfl (setCopy_copy_other _ _ _ _ hx)
  unfold State.takeSetting
  split
  · by_cases hw : w.watched
    · obtain rfl | rfl | rfl := hw
      · refine ⟨(setCopy_keeps v (by decide) (by decide)).trans (takeLayout_keeps ..), fun h => ?_⟩
        change holdingsOk (inUse ((s.setCopy .axleLayout v).takeLayout (s.copy .axleLayout) v).layout)
          ((s.setCopy .axleLayout v).takeLayout (s.copy .axleLayout) v)
        rw [layout_of_base (takeLayout_base ..), State.layout, setCopy_copy_same]
        exact takeLayout_holdings v ((Steady.of_eq rfl rfl : Steady s (s.setCopy .axleLayout v)).holdings h)
      · exact houtputs .ackLimit (by decide)
      · exact houtputs .escAction (by decide)
    · exact (setCopy_all v hw).trans (applySetting_all _ _ hw)
  · exact refuseSetting_all ..

theorem markLoaded_all (s : State) (w : SettingWord) : KeepsAll s (s.markLoaded w) := KeepsAll.of_keeps {} rfl rfl rfl

theorem completeLoad_all (s : State) : KeepsAll s s.completeLoad := by
  unfold State.completeLoad
  split
  · have h (x : Control) (hx : x.parked = s.control.parked) : KeepsAll s ({ s with control := x } : State).enterRun :=
      (KeepsAll.control (fun hp => by rw [hx]; exact hp)).trans (enterRun_all _)
    exact h _ rfl
  · exact KeepsAll.refl s

theorem takeLoaded_all (s : State) (w : SettingWord) (v : Word) : KeepsAll s (s.takeLoaded w v) := by
  unfold State.takeLoaded
  split
  · exact KeepsAll.refl s
  · exact (takeSetting_all ..).trans ((markLoaded_all ..).trans (completeLoad_all _))

theorem loadResult_all (s : State) (o : Nat) (v : Word) : KeepsAll s (s.loadResult o v) := by
  unfold State.loadResult
  split
  · exact takeLoaded_all ..
  · exact KeepsAll.refl s

theorem offerLoad_all (s : State) (w : SettingWord) : KeepsAll s (s.offerLoad w) := by
  unfold State.offerLoad
  split
  · exact takeLoaded_all ..
  · split
    · next h =>
      have hlen := length_of_roomForProducer (Bool.and_eq_true _ _ |>.mp h).2
      exact KeepsAll.path (queueRead_ok _ _ (by omega))
    · exact KeepsAll.path id

theorem startLoading_all (s : State) : KeepsAll s s.startLoading := by
  have h (u : State) : KeepsAll u ((settingWords.filter (fun w => !(u.isLoaded w))).foldl State.offerLoad u) :=
    KeepsAll.foldl offerLoad_all _ u
  exact (KeepsAll.control (s := s) (x := { s.control with op := .loading }) id).trans ((followEnables_all _).trans (h _))

theorem hostUp_all (s : State) : KeepsAll s s.hostUp := by
  unfold State.hostUp
  dsimp only
  split
  · exact (leaveWatch_all s).trans (enterRun_all _)
  · exact (leaveWatch_all s).trans (startLoading_all _)

/-- R105, R178: five values at most wait for the sixth. -/
theorem limitSetOf_none {l : List Int} {v : Int} (hl : l.length ≤ 5) (h : limitSetOf (l ++ [v]) = none) :
    (l ++ [v]).length ≤ 5 := by
  by_contra hlong
  have hsix : (l ++ [v]).length = 6 := by simp at hlong ⊢; omega
  obtain ⟨a, b, c, d, e, f, hl6⟩ : ∃ a b c d e f, l ++ [v] = [a, b, c, d, e, f] := by
    match hm : l ++ [v] with
    | [a, b, c, d, e, f] => exact ⟨a, b, c, d, e, f, rfl⟩
    | [] | [_] | [_, _] | [_, _, _] | [_, _, _, _] | [_, _, _, _, _] => rw [hm] at hsix; simp at hsix
    | _ :: _ :: _ :: _ :: _ :: _ :: _ :: _ => rw [hm] at hsix; simp at hsix
  rw [hl6] at h
  cases h

theorem appendLimit_all (s : State) (v : Int) : KeepsAll s (s.appendLimit v) := by
  unfold State.appendLimit
  split
  · next l _ =>
    have hempty : KeepsAll s { s with snoop := { s.snoop with partialEntry := [] } } :=
      KeepsAll.of_keeps { limits := fun _ => Nat.zero_le _ } rfl rfl rfl
    refine hempty.trans ?_
    unfold State.deliverLimits
    split
    · exact KeepsAll.of_keeps {} rfl rfl rfl
    · exact (notify_calm ..).all_of_base (by simp)
  · next h => exact KeepsAll.of_keeps { limits := fun hl => limitSetOf_none hl h } rfl rfl rfl

theorem takeReadIndex_all (s : State) (b : BitVec 7) : KeepsAll s (s.takeReadIndex b) := by
  have hlost : KeepsAll s (if s.readIndex = b then s else s.clearLost) := by
    split
    · exact KeepsAll.refl s
    · exact KeepsAll.controlNotices _ rfl
  have hatt (u : State) (n : NoticeWriter) : KeepsAll u { u with notices := n } := KeepsAll.of_keeps {} rfl rfl rfl
  exact hlost.trans (hatt _ _)

theorem commandAck_all (s : State) (t : Option Pos) (m : Word) : KeepsAll s (s.commandAck t m).1 := by
  unfold State.commandAck
  split
  · exact KeepsAll.refl s
  · split
    · exact KeepsAll.foldl (fun u p => (ackPosition_calm u m p).all_of_base (by simp)) _ s
    · split
      · exact KeepsAll.refl s
      · exact (ackPosition_calm ..).all_of_base (by simp)

theorem withPosition_all (b : Byte) {s : State} {f : Pos → State × CmdOutcome} (h : ∀ p, KeepsAll s (f p).1) :
    KeepsAll s (withPosition b s f).1 := by
  unfold withPosition
  split
  · exact h _
  · exact KeepsAll.refl s

theorem withTarget_all (b : Byte) {s : State} {f : Option Pos → State × CmdOutcome} (h : ∀ t, KeepsAll s (f t).1) :
    KeepsAll s (withTarget b s f).1 := by
  unfold withTarget
  split
  · exact h _
  · exact withPosition_all b (fun p => h _)

theorem runCommand_all (s : State) (c t p : Byte) : KeepsAll s (s.runCommand c t p).1 := by
  have hoffers (cs : List Coil) : KeepsAll s (s.offerCommands cs t).1 :=
    (offerCommands_calm s cs t).all_of_base (by simp)
  unfold State.runCommand
  dsimp only
  split
  · exact withPosition_all p (fun q => commandBind_all s q _ t)
  · exact withPosition_all p (fun q => commandUnbind_all s q t)
  · exact withPosition_all p (fun q => commandSwap_all s q _ t)
  · refine withTarget_all p (fun q => ?_)
    cases q <;> exact hoffers _
  · exact hoffers _
  · exact withTarget_all p (fun q => commandAck_all s q _)
  · exact (forgetCandidates_calm s).all rfl
  · exact KeepsAll.refl s

theorem takeCommand_all (s : State) (m : Word) (b : Bool) : KeepsAll s (s.takeCommand m b) := by
  have hresult (u : State) (c t : Byte) (o : CmdOutcome) : KeepsAll u (u.writeResult c t o) :=
    KeepsAll.of_keeps {} rfl rfl rfl
  unfold State.takeCommand
  dsimp only
  split
  · exact KeepsAll.refl s
  · split
    · exact hresult ..
    · exact (runCommand_all ..).trans (hresult ..)

theorem takeLive_all (s : State) (w : LiveWord) (m : Word) (b : Bool) : KeepsAll s (s.takeLive w m b) := by
  have hlive (x : LiveWord) : KeepsAll s (s.setLive x m) := KeepsAll.of_keeps {} rfl rfl rfl
  have hindex (u : State) (i : BitVec 4) : KeepsAll u (u.setLoaderIndex i) :=
    KeepsAll.of_keeps { limits := fun _ => Nat.zero_le _ } rfl rfl rfl
  unfold State.takeLive
  split
  · split
    · exact (hlive _).trans (takeReadIndex_all ..)
    · exact refuseSetting_all ..
  · exact (hlive _).trans (takeHold_all ..)
  · exact hlive _
  · exact (hlive _).trans (takeCommand_all ..)
  · split
    · exact (hlive _).trans (hindex ..)
    · exact refuseSetting_all ..
  · exact (hlive _).trans (appendLimit_all ..)

theorem takeHostSetting_all (s : State) (w : SettingWord) (h : HostWord) : KeepsAll s (s.takeHostSetting w h) := by
  unfold State.takeHostSetting
  dsimp only
  split
  · exact (takeSetting_all ..).trans ((markLoaded_all ..).trans (completeLoad_all _))
  · exact takeSetting_all ..

theorem takeWord_all (s : State) (o : Nat) (h : HostWord) : KeepsAll s (s.takeWord o h) := by
  unfold State.takeWord
  split
  · exact KeepsAll.refl s
  · split
    · exact takeHostSetting_all ..
    · split
      · exact takeLive_all ..
      · exact KeepsAll.refl s

/-! ### The memory path (chapter 9) -/

theorem issueHead_all (s : State) : KeepsAll s s.issueHead := by
  unfold State.issueHead
  split
  · exact KeepsAll.refl s
  · next e q hq =>
    exact KeepsAll.of_keeps { queue := fun h => queueOk_sublist h (by rw [hq]; exact List.sublist_cons_self e q) } rfl rfl rfl

theorem issueInGap_all (s : State) : KeepsAll s s.issueInGap := by
  unfold State.issueInGap
  split
  · exact issueHead_all s
  · exact KeepsAll.refl s

theorem completeAccess_all (s : State) : KeepsAll s s.completeAccess := by
  have hreport (u : State) (e : QEntry) (w : Word) : KeepsAll u (u.report e w) := by
    unfold State.report
    split
    · exact tryFlip_all u
    · exact KeepsAll.of_keeps {} rfl rfl rfl
    · exact trendResult_all ..
    · exact loadResult_all ..
  have hdone (m : List Host.Cell) (x : Path) (hx : x.queue = s.path.queue) :
      KeepsAll s { s with mem := m, path := x } :=
    KeepsAll.of_keeps { queue := fun h => by rw [hx]; exact h } rfl rfl rfl
  have hreported (m : List Host.Cell) (x : Path) (hx : x.queue = s.path.queue) (e : QEntry) (w : Word) :
      KeepsAll s (({ s with mem := m, path := x } : State).report e w) := (hdone m x hx).trans (hreport ..)
  unfold State.completeAccess
  dsimp only
  split
  · exact KeepsAll.refl s
  · split
    · exact hreported _ { s.path with bus := none } rfl _ _
    · exact hdone _ _ rfl

theorem reofferKept_all (s : State) : KeepsAll s s.reofferKept := by
  have hkept (x : List SettingWord) : KeepsAll s { s with path := { s.path with keptLoads := x } } := KeepsAll.path id
  unfold State.reofferKept
  split
  · split
    · next p _ =>
      unfold State.reofferPublish
      split
      · exact KeepsAll.refl s
      · split
        · next h =>
          simp only [Bool.and_eq_true, Bool.or_eq_true] at h
          have hroom := h.2.imp id (fun hr => Nat.lt_of_lt_of_le (length_of_roomForProducer hr) (by decide : 40 ≤ 48))
          exact (KeepsAll.sweep s _).trans (addWrite_all _ _ hroom)
        · exact KeepsAll.refl s
    · exact KeepsAll.refl s
  · split
    · unfold State.reofferTrend
      split
      · exact KeepsAll.refl s
      · split
        · exact (KeepsAll.sweep s _).trans (trendResult_all ..)
        · split
          · next h =>
            have hlen := length_of_roomForProducer h
            exact KeepsAll.of_keeps { queue := queueRead_ok _ _ (by omega) } rfl rfl rfl
          · exact KeepsAll.refl s
    · unfold State.reofferLoad
      split
      · exact KeepsAll.refl s
      · split
        · exact (hkept _).trans (takeLoaded_all ..)
        · split
          · next h =>
            have hlen := length_of_roomForProducer h
            exact KeepsAll.of_keeps { queue := queueRead_ok _ _ (by omega) } rfl rfl rfl
          · exact KeepsAll.refl s

theorem takeWords_all (s : State) (o : Nat) (ws : List HostWord) : KeepsAll s (s.takeWords o ws) := by
  induction ws generalizing s o with
  | nil => exact KeepsAll.refl s
  | cons w ws ih => exact (takeWord_all s o w).trans (ih _ _)

/-- R166: the record of refused words leaves the queue. -/
theorem refuseAll_queue (ws : List HostWord) (p : Path) (a : Nat) : (p.refuseAll a ws).queue = p.queue := by
  induction ws generalizing p a with
  | nil => rfl
  | cons w ws ih =>
    rw [Path.refuseAll, ih]
    unfold Path.refuse
    split <;> rfl

theorem carry_all (s : State) (t : BusTxn) : KeepsAll s (s.carry t) := by
  have hwrite (a : Nat) (ws : List HostWord) : KeepsAll s (s.carryWrite a ws) := KeepsAll.of_keeps {} rfl rfl rfl
  have hrefused (x : Path) (y : Ports) (hx : x.queue = s.path.queue) : KeepsAll s { s with path := x, ports := y } :=
    KeepsAll.of_keeps { queue := fun h => by rw [hx]; exact h } rfl rfl rfl
  unfold State.carry
  split
  · exact KeepsAll.of_keeps {} rfl rfl rfl
  · exact hwrite ..
  · exact (hwrite ..).trans (takeWords_all ..)
  · exact hrefused _ _ (refuseAll_queue _ _ _)

theorem present_all (s : State) (t : HostTxn) : KeepsAll s (s.present t) := by
  have hpath (x : Path) (hx : x.queue = s.path.queue) : KeepsAll s { s with path := x } :=
    KeepsAll.path (fun h => by rw [hx]; exact h)
  have hissue (x : Path) (hx : x.queue = s.path.queue) : KeepsAll s ({ s with path := x } : State).issueHead :=
    (hpath x hx).trans (issueHead_all _)
  unfold State.present
  split
  · exact hpath _ rfl
  · split
    · unfold State.begin
      split
      · exact hpath _ rfl
      · split
        · exact hissue _ rfl
        · exact carry_all ..
    · exact KeepsAll.of_keeps {} rfl rfl rfl

theorem release_all (s : State) : KeepsAll s s.release := by
  have hpath (x : Path) (hx : x.queue = s.path.queue) : KeepsAll s { s with path := x } :=
    KeepsAll.path (fun h => by rw [hx]; exact h)
  have hissue (x : Path) (hx : x.queue = s.path.queue) : KeepsAll s ({ s with path := x } : State).issueHead :=
    (hpath x hx).trans (issueHead_all _)
  have hcarry (x : Path) (hx : x.queue = s.path.queue) (t : BusTxn) (l : List HostTxn) :
      KeepsAll s (l.foldl State.present (({ s with path := x } : State).carry t)) :=
    (hpath x hx).trans ((carry_all _ t).trans (KeepsAll.foldl present_all l _))
  unfold State.release
  split
  · exact KeepsAll.refl s
  · split
    · exact hissue _ rfl
    · exact hcarry { s.path with held := none, owed := false, waiting := [] } rfl _ _

/-! ### Reset (R151) -/

/-- R151: an empty queue, no record standing, empty lists. -/
theorem reset_outputs (armed : Bool) : outputsShow .off .idle State.reset.positions armed := by
  have halert : ∀ p k, State.reset.alertAt p k = AlertRec.reset := by
    intro p k
    have hp : State.reset.posAt p = PosRec.reset := by simp [posAt_eq, State.reset]
    unfold State.alertAt
    rw [hp]
    cases k <;> rfl
  have hs := (anyAlert_eq_false_iff State.reset AlertRec.standing).mpr (fun p k => by rw [halert]; rfl)
  have hu := (anyAlert_eq_false_iff State.reset AlertRec.unackedAlarm).mpr (fun p k => by rw [halert]; rfl)
  simp [outputsShow, hs, hu]

/-- R2, R151: with the layout of the reset values no position is in use, and no record holds an ID. -/
theorem reset_holdings : holdingsOk (inUse State.reset.layout) State.reset := by
  have hp : ∀ p, State.reset.posAt p = PosRec.reset := fun p => by simp [posAt_eq, State.reset]
  have hlayout : State.reset.layout = 0 := by decide
  have hnone : ∀ p, inUse 0 p = false := by decide
  refine ⟨fun p => ?_, fun p q i h => ?_, fun p i h => ?_⟩
  · rw [hp, hlayout, hnone]
    exact ⟨rfl, iff_of_true rfl rfl, fun h => by cases h⟩
  · rw [hp] at h; cases h
  · rw [hp] at h; cases h

theorem reset_firesOk : firesOk [] [] := ⟨⟨by simp, by simp, by simp, by simp⟩, by simp, by simp, by simp⟩

theorem reset_recentOk : recentOk [] := ⟨by simp, by simp⟩

theorem reset_queueOk : queueOk [] := (queueOk_iff []).mpr ⟨by simp, by simp [writeOffsets]⟩

theorem enterReset_all (s : State) : KeepsAll s s.enterReset where
  keeps := {
    queue := fun _ => reset_queueOk
    outputs := fun _ => reset_outputs _
    fires := fun _ => reset_firesOk
    recent := fun _ => reset_recentOk
    requests := fun _ => List.nodup_nil
    parked := fun _ => Nat.zero_le _
    limits := fun _ => Nat.zero_le _ }
  bindings := fun _ => (Steady.of_eq rfl rfl : Steady State.reset s.enterReset).holdings reset_holdings

/-! ### Every command (R5, R6, R20, R37, R45, R49, R62, R66, R127, R128, R160, R169, R178) -/

/-- R129: a timer that expires does not become IDLE. -/
theorem expireAt_idle (e : Escalation) (now : Time) : e.expireAt now = .idle ↔ e = .idle := by
  unfold Escalation.expireAt
  cases e with
  | idle => simp
  | running x => dsimp only; split <;> simp
  | expired => simp

/-- R127: a toggled lamp stays in its state. -/
theorem toggleAt_state (l : Lamp) (now : Time) :
    (l.toggleAt now = .off ↔ l = .off) ∧ ((∃ d e, l.toggleAt now = .flash d e) ↔ ∃ d e, l = .flash d e) := by
  unfold Lamp.toggleAt
  cases l with
  | off => simp
  | on => simp
  | flash d e => dsimp only; split <;> simp

theorem all_kept (s₀ : State) : KeptByCommands (KeepsAll s₀) where
  elapse _ _ h := h.trans (KeepsAll.of_keeps {} rfl rfl rfl)
  pins _ _ h := h.trans (KeepsAll.of_keeps {} rfl rfl rfl)
  refIgn _ _ h := h.trans (KeepsAll.of_keeps {} rfl rfl rfl)
  refTrl _ _ h := h.trans (KeepsAll.of_keeps {} rfl rfl rfl)
  refHup _ _ h := h.trans (KeepsAll.of_keeps {} rfl rfl rfl)
  enterReset s h := h.trans (enterReset_all s)
  release s h := h.trans (release_all s)
  startLoading s h := h.trans (startLoading_all s)
  enterWatch s h := h.trans (enterWatch_all s)
  hostUp s h := h.trans (hostUp_all s)
  hostDown s h := h.trans (hostDown_all s)
  offerRechecks s h := h.trans ((offerRechecks_calm s).all_of_base (by simp))
  offerAttaches s h := h.trans ((offerAttaches_calm s).all_of_base (by simp))
  trailerFall _ h := h.trans (((tearDown_calm _ _).trans (detachTrailer_calm _)).all_of_base (by simp))
  endSettling s l h := h.trans (endSettling_all s l)
  takeDelivery s _ _ _ _ h := h.trans (takeDelivery_all s _ _ _ _)
  settleDue s h := h.trans (settleDue_all s)
  schedule s h := h.trans ((schedule_calm s).all_of_base (by simp))
  setCoil _ _ _ h := h.trans (KeepsAll.of_keeps {} rfl rfl rfl)
  closeRecords s c h := h.trans ((closeRecords_calm s c).all rfl)
  classify s r _ h := h.trans (classify_all s r)
  expireIfReached s p h := h.trans ((expireIfReached_calm s p).all_of_base (by simp))
  settleEnd _ _ h := h.trans (KeepsAll.eval rfl rfl)
  escalation s h := h.trans (KeepsAll.of_keeps { outputs := fun ho =>
    ⟨ho.1, ho.2.1, (expireAt_idle _ _).trans ho.2.2⟩ } rfl rfl rfl)
  lamp s h := h.trans (KeepsAll.of_keeps { outputs := fun ho =>
    ⟨(toggleAt_state _ _).1.trans ho.1, (toggleAt_state _ _).2.trans ho.2.1, ho.2.2⟩ } rfl rfl rfl)
  sweepExpires s h := h.trans (sweepExpires_all s)
  captureNext s h := h.trans (captureNext_all s)
  reofferKept s h := h.trans (reofferKept_all s)
  issueInGap s h := h.trans (issueInGap_all s)
  headWaited _ h := h.trans (KeepsAll.path id)
  completeAccess s h := h.trans (completeAccess_all s)
  startWindow s h := h.trans (startWindow_all s)
  followEnables s h := h.trans (followEnables_all s)
  windowEnd _ _ h := h.trans (KeepsAll.control id)
  deepWatch _ h := h.trans (KeepsAll.control id)
  present s t h := h.trans (present_all s t)

/-- Every step keeps every invariant. -/
theorem step_keepsAll {s t : State} (h : step s = .next t) : KeepsAll s t :=
  (all_kept s).step (fun _ _ h => h.trans (KeepsAll.of_keeps {} rfl rfl rfl)) s t (KeepsAll.refl s) h

/-- Settles O56: a WRITE coalesces or finds a place, a READ finds a place, and nothing else joins the queue. -/
theorem everyStepKeepsTheOutboundQueue : Obligations.EveryStepKeepsTheOutboundQueue :=
  fun _ _ h e => (step_keepsAll e).keeps.queue h

/-- Settles O57: the operations follow the IDs that the records hold. -/
theorem everyStepKeepsTheBindings : Obligations.EveryStepKeepsTheBindings :=
  fun _ _ h e => (holdingsOk_iff _).mpr ((step_keepsAll e).bindings ((holdingsOk_iff _).mp h))

/-- Settles O58: whatever changes an alert record brings the outputs up to date. -/
theorem everyStepKeepsTheLampAndTheTimer : Obligations.EveryStepKeepsTheLampAndTheTimer :=
  fun _ _ h e => (outputsShow_iff _).mpr ((step_keepsAll e).keeps.outputs ((outputsShow_iff _).mp h))

/-- Settles O59: the records and the candidate list change together, and every list has its bound. -/
theorem everyStepKeepsTheRecordsAndLists : Obligations.EveryStepKeepsTheRecordsAndLists := by
  intro s t h e
  obtain ⟨hrec, hcand, hrecent, hkeys, hreq, hparked, hlimits⟩ := h
  have k := (step_keepsAll e).keeps
  obtain ⟨hrec', hcand'⟩ := k.fires ⟨hrec, hcand⟩
  obtain ⟨hrecent', hkeys'⟩ := k.recent ⟨hrecent, hkeys⟩
  exact ⟨hrec', hcand', hrecent', hkeys', k.requests hreq, k.parked hparked, k.limits hlimits⟩

/-- Settles O60: each block at its reset values. -/
theorem invariantsHoldAtReset : Obligations.InvariantsHoldAtReset := by
  obtain ⟨hbind, hlisted⟩ := (holdingsOk_iff State.reset).mpr reset_holdings
  obtain ⟨hlamp, htimer⟩ := (outputsShow_iff State.reset).mpr (reset_outputs _)
  obtain ⟨hrec, hcand⟩ := reset_firesOk
  obtain ⟨hrecent, hkeys⟩ := reset_recentOk
  exact ⟨rfl, reset_queueOk, hbind, hlisted, hlamp, htimer, hrec, hcand, hrecent, hkeys, List.nodup_nil, Nat.zero_le _,
    Nat.zero_le _⟩

end Sys2Proof.Machine
end

section
/-! The commands of one timer, one line or one lane (R26, R60, R67, R123, R127, R129, R157, R163): a command whose time has
come is written out by one equation, which its obligation reads off. -/

namespace Sys2Proof.Machine

/-- Settles O9: the straps are the only thing that the command writes. -/
theorem windowBaseFollowsTheStraps : Obligations.WindowBaseFollowsTheStraps := fun _ _ _ => ⟨_, rfl, rfl, rfl⟩

/-! ### Lanes (R26) -/

/-- R26: the end of SETTLING that has come. -/
theorem endSettling_due {s : State} {l : Lane} {e : Time} (hl : (s.intake.lanes.get l).state = .settling e)
    (he : e ≤ s.now) : s.endSettling l = s.modLane l (fun r => { r with state := .on s.now }) := by
  rw [State.endSettling, hl]
  exact if_pos he

theorem rxen_of_settling {s : State} {l : Lane} {e : Time} (hl : (s.intake.lanes.get l).state = .settling e) :
    s.rxen l = true := by
  rw [State.rxen, hl]

theorem rxen_of_on {s : State} {l : Lane} {e : Time} (hl : (s.intake.lanes.get l).state = .on e) : s.rxen l = true := by
  rw [State.rxen, hl]

/-- Settles O10: the enable is high in SETTLING and in ON. -/
theorem settlingLaneTurnsOn : Obligations.SettlingLaneTurnsOn := by
  intro dt l e s hl he
  have hexec : exec (.laneSettlingEnd dt l) s = .next ((s.elapse dt).endSettling l) := rfl
  rw [endSettling_due (s := s.elapse dt) hl he] at hexec
  refine ⟨_, hexec, rxen_of_settling hl, rxen_of_on (e := s.now + dt) ?_, rfl⟩
  simp [State.modLane]

/-! ### Coils and records (R60, R67) -/

theorem coilActive_setCoil (s : State) (c : Coil) (e : Time) : (s.setCoil c (.recovering e)).coilActive c = false := by
  have hget : (s.setCoil c (.recovering e)).trigger.coils.get c = .recovering e := Vector.getElem_set_self c.isLt
  rw [State.coilActive, hget]

/-- Settles O20: each of the three commands writes one field. -/
theorem coilsAndRecordsRunThroughTheirPeriods : Obligations.CoilsAndRecordsRunThroughTheirPeriods := by
  refine ⟨?burst, ?recovering, ?openPeriod⟩
  case burst =>
    intro dt c start code s hc he
    have hexec : exec (.burstEnd dt c) s = .next ((s.elapse dt).setCoil c (.recovering (start + 10 + 250))) := by
      change execBurstEnd dt c s = _
      rw [execBurstEnd]
      simp only [elapse_trigger, hc]
      exact if_pos he
    refine ⟨_, hexec, ?_, coilActive_setCoil _ _ _, rfl⟩
    rw [State.coilActive, hc]
  case recovering =>
    intro dt c ends s hc he
    change execRecoveringEnd dt c s = _
    rw [execRecoveringEnd]
    simp only [elapse_trigger, hc]
    exact if_pos he
  case openPeriod => exact fun dt c s => rfl

/-! ### The evaluation unit's timers (R123, R127, R129) -/

theorem due_some {e now : Time} (h : e ≤ now) : due (some e) now = true := decide_eq_true h

/-- Settles O25: each timer that has come to its end is written out. -/
theorem timersOfTheEvaluationUnit : Obligations.TimersOfTheEvaluationUnit := by
  refine ⟨?settle, ?escalation, ?lamp⟩
  case settle =>
    intro dt e s hs he
    change execTippingSettleEnd dt s = _
    rw [execTippingSettleEnd]
    simp only [elapse_eval, hs]
    exact if_pos (due_some he)
  case escalation =>
    intro dt e s hs he
    have hexpired : s.eval.escalation.expireAt (s.now + dt) = .expired := by
      rw [hs]
      exact if_pos he
    refine ⟨{ s.elapse dt with eval := { s.eval with escalation := .expired } }, ?_, rfl, rfl⟩
    change execEscalationExpiry dt s = _
    rw [← hexpired]
    rfl
  case lamp =>
    intro dt d e s hs he
    have htoggled : s.eval.lamp.toggleAt (s.now + dt) = .flash (!d) (s.now + dt + 500) := by
      rw [hs]
      exact if_pos he
    refine ⟨{ s.elapse dt with eval := { s.eval with lamp := .flash (!d) (s.now + dt + 500) } }, ?_, rfl, rfl⟩
    change execLampFlashHalfPeriod dt s = _
    rw [← htoggled]
    rfl

/-! ### The listen cycle (R26, R157) -/

/-- R26: the enables that follow the table change the lanes only. -/
theorem followEnables_eq (s : State) : s.followEnables = { s with intake := s.followEnables.intake } := rfl

@[simp] theorem followEnables_lane (s : State) (l : Lane) :
    s.followEnables.intake.lanes.get l = (s.intake.lanes.get l).follow (s.enableHigh l) s.now := by
  rw [State.followEnables]
  exact Lanes.get_tabulate _ _

theorem follow_low (r : LaneRec) (now : Time) : (r.follow false now).state = .off := rfl

theorem follow_off {r : LaneRec} (now : Time) (h : r.state = .off) : (r.follow true now).state = .settling (now + 20) := by
  simp [LaneRec.follow, h, Config.laneSettling]

/-- R26: the enable of a lane in WATCH and DEEP WATCH is that of the window. -/
theorem enableHigh_watching {s : State} (l : Lane) (hop : s.control.op = .watch ∨ s.control.op = .deepWatch) :
    s.enableHigh l = (!(s.masked l) && s.control.windowEnd.isSome) := by
  rw [State.enableHigh]
  obtain h | h := hop <;> rw [h]

/-- R26, R157: in a window an unmasked OFF lane enters SETTLING. -/
theorem followEnables_window {s : State} {l : Lane} (hop : s.control.op = .watch ∨ s.control.op = .deepWatch)
    (hwindow : s.control.windowEnd.isSome = true) (hmask : s.masked l = false)
    (hoff : (s.intake.lanes.get l).state = .off) :
    (s.followEnables.intake.lanes.get l).state = .settling (s.now + 20) := by
  rw [followEnables_lane, enableHigh_watching l hop, hmask, hwindow]
  exact follow_off s.now hoff

/-- R26, R157: out of a window every lane is OFF. -/
theorem followEnables_noWindow {s : State} (l : Lane) (hop : s.control.op = .watch ∨ s.control.op = .deepWatch)
    (hwindow : s.control.windowEnd = none) : (s.followEnables.intake.lanes.get l).state = .off := by
  rw [followEnables_lane, enableHigh_watching l hop, hwindow]
  simp [LaneRec.follow]

/-- R26, R157: in a window that has just opened an unmasked OFF lane enters SETTLING. -/
theorem startWindow_lane {s : State} {l : Lane} (hop : s.control.op = .watch ∨ s.control.op = .deepWatch)
    (hmask : s.masked l = false) (hoff : (s.intake.lanes.get l).state = .off) :
    (s.startWindow.intake.lanes.get l).state = .settling (s.now + 20) :=
  followEnables_window hop rfl hmask hoff

theorem watching_of {op : OpState} (h : op = .watch ∨ op = .deepWatch) : op.watching = true := by
  obtain rfl | rfl := h <;> rfl

theorem listenPeriod_of {op : OpState} (h : op = .watch ∨ op = .deepWatch) :
    op.listenPeriod = if op = .watch then 30000 else 120000 := by
  obtain rfl | rfl := h <;> rfl

/-- Settles O27: a window start and a window end write control and the lanes, the deep-watch expiry control alone. -/
theorem listenCycle : Obligations.ListenCycle := by
  refine ⟨?start, ?stop, ?deep⟩
  case start =>
    intro dt e s hop hnext he
    have hexec : exec (.listenWindowStart dt) s = .next (s.elapse dt).startWindow := by
      change execListenWindowStart dt s = _
      rw [execListenWindowStart]
      simp only [elapse_control, hnext, watching_of hop]
      exact if_pos (due_some he)
    refine ⟨_, hexec, rfl, ?_, fun l => startWindow_lane (s := s.elapse dt) hop, rfl, rfl⟩
    rw [← listenPeriod_of hop]
    rfl
  case stop =>
    intro dt e s hop hend he
    have hexec : exec (.listenWindowEnd dt) s =
        .next ({ s.elapse dt with control := { s.control with windowEnd := none } } : State).followEnables := by
      change execListenWindowEnd dt s = _
      rw [execListenWindowEnd]
      simp only [elapse_control, hend]
      exact if_pos (due_some he)
    exact ⟨_, hexec, rfl, rfl, fun l => followEnables_noWindow l hop rfl, rfl, rfl⟩
  case deep =>
    intro dt e s hop hend he
    change execDeepWatchExpiry dt s = _
    rw [execDeepWatchExpiry]
    simp only [elapse_control, hend, hop]
    exact if_pos ⟨trivial, due_some he⟩

end Sys2Proof.Machine
end

section
/-! What the part's own work reads of the memory path (R172): never the host transaction that is held, the access owed
before it, nor those that wait behind it. Each operation that the completion of a part access can call for commutes with a
change of the three; so it keeps them, and it does the same whatever they are. -/

namespace Sys2Proof.Machine

/-! ### A notice in RUN (R183) -/

/-- R183: the ring is full, or the queue lacks room for the notice's writes. -/
def State.losesNotice (s : State) (n : Notice) : Prop :=
  s.notices.write + 1 = s.readIndex ∨ s.admits = false ∨
    s.freePlaces < newEntries s.path.queue (noticeWrites n s.notices.write)

/-- R183: the notice at the slot of the write index. -/
def State.ringed (s : State) (n : Notice) : State :=
  let t := (noticeWrites n s.notices.write).foldl (fun t w => t.addWrite w.offset w.data .notice) s
  { t with notices := { t.notices with write := t.notices.write + 1, inRing := t.notices.inRing ++ [n] } }

theorem placeNotice_lost {s : State} {n : Notice} (h : s.losesNotice n) :
    s.placeNotice n = { s with notices := { s.notices with lost := true } } := if_pos h

theorem placeNotice_ring {s : State} {n : Notice} (h : ¬s.losesNotice n) : s.placeNotice n = s.ringed n := if_neg h

/-! ### The stages of the larger operations -/

/-- R139 steps 1 to 3: the head, the leak rates and the page decision of a flip attempt. -/
def State.decided (s : State) (p : Publication) : State :=
  let s := { s with sweep := s.sweep.advanceHead p (s.setting .historyDepth) }
  let s := s.mapPos (fun _ r => { r with leak := none })
  { s with sweep := s.sweep.decide }

/-- R139: the publication ends. -/
def State.unpublished (s : State) : State := { s with sweep := { s.sweep with publication := none } }

theorem attempted_eq (s : State) (p : Publication) :
    s.attempted p = (if s.sweep.mustOverride then
      (s.decided p).notify .holdOverridden none 0 0 (BitVec.ofNat 32 p.number.toNat) else s.decided p).unpublished := rfl

/-- R161: the operating state is RUN. -/
def State.running (s : State) : State := { s with control := { s.control with op := .run } }

/-- R161 steps 2 to 4: the lanes, the deadlines and the sweep timer. -/
def State.ready (s : State) : State := s.followEnables.clearQuietCounts.armAll.startSweeps

theorem enterRun_eq (s : State) : s.enterRun = s.running.writeParked.ready.offerOnEntry := rfl

/-- R167: the memory has performed the access on the bus, and the bus is free. -/
def State.accessDone (s : State) (b : Issued) : State :=
  { s with mem := b.entry.perform s.mem b.addr, path := { s.path with bus := none } }

section
variable {s : State} {b : Issued}

theorem completeAccess_idle (h : s.path.bus = none) : s.completeAccess = s := by rw [State.completeAccess, h]

theorem completeAccess_reported (h : s.path.bus = some b) (hr : b.reported = true) :
    s.completeAccess = (s.accessDone b).report b.entry (readWord s.mem b.addr) := by
  rw [State.completeAccess, h]
  exact if_pos hr

theorem completeAccess_abandoned (h : s.path.bus = some b) (hr : b.reported = false) :
    s.completeAccess = s.accessDone b := by
  rw [State.completeAccess, h]
  exact if_neg (by rw [hr]; exact Bool.false_ne_true)

end

/-! ### The host side of the memory path -/

/-- R172: the host transaction that is held, the access owed before it, and those that wait, replaced. -/
def State.hosting (s : State) (h : Option BusTxn) (o : Bool) (w : List HostTxn) : State :=
  { s with path := { s.path with held := h, owed := o, waiting := w } }

section
variable (s : State) (h : Option BusTxn) (o : Bool) (w : List HostTxn)

theorem hosting_self : s.hosting s.path.held s.path.owed s.path.waiting = s := rfl

/-! ### What is read of a state -/

@[simp] theorem hosting_now : (s.hosting h o w).now = s.now := rfl
@[simp] theorem hosting_intake : (s.hosting h o w).intake = s.intake := rfl
@[simp] theorem hosting_positions : (s.hosting h o w).positions = s.positions := rfl
@[simp] theorem hosting_candidates : (s.hosting h o w).candidates = s.candidates := rfl
@[simp] theorem hosting_trigger : (s.hosting h o w).trigger = s.trigger := rfl
@[simp] theorem hosting_eval : (s.hosting h o w).eval = s.eval := rfl
@[simp] theorem hosting_sweep : (s.hosting h o w).sweep = s.sweep := rfl
@[simp] theorem hosting_snoop : (s.hosting h o w).snoop = s.snoop := rfl
@[simp] theorem hosting_notices : (s.hosting h o w).notices = s.notices := rfl
@[simp] theorem hosting_control : (s.hosting h o w).control = s.control := rfl
@[simp] theorem hosting_pins : (s.hosting h o w).pins = s.pins := rfl
@[simp] theorem hosting_mem : (s.hosting h o w).mem = s.mem := rfl
@[simp] theorem hosting_queue : (s.hosting h o w).path.queue = s.path.queue := rfl
@[simp] theorem hosting_bus : (s.hosting h o w).path.bus = s.path.bus := rfl
@[simp] theorem hosting_keptLoads : (s.hosting h o w).path.keptLoads = s.path.keptLoads := rfl
@[simp] theorem hosting_posAt (p : Pos) : (s.hosting h o w).posAt p = s.posAt p := rfl
@[simp] theorem hosting_alertAt (p : Pos) (k : AlertKind) : (s.hosting h o w).alertAt p k = s.alertAt p k := rfl
@[simp] theorem hosting_copy (x : SettingWord) : (s.hosting h o w).copy x = s.copy x := rfl
@[simp] theorem hosting_setting (x : SettingWord) : (s.hosting h o w).setting x = s.setting x := rfl
@[simp] theorem hosting_settingHigh (x : SettingWord) : (s.hosting h o w).settingHigh x = s.settingHigh x := rfl
@[simp] theorem hosting_layout : (s.hosting h o w).layout = s.layout := rfl
@[simp] theorem hosting_readIndex : (s.hosting h o w).readIndex = s.readIndex := rfl
@[simp] theorem hosting_admits : (s.hosting h o w).admits = s.admits := rfl
@[simp] theorem hosting_freePlaces : (s.hosting h o w).freePlaces = s.freePlaces := rfl
@[simp] theorem hosting_roomForProducer : (s.hosting h o w).roomForProducer = s.roomForProducer := rfl
@[simp] theorem hosting_available (c : Coil) : (s.hosting h o w).available c = s.available c := rfl
@[simp] theorem hosting_persistentOn (l : Lane) : (s.hosting h o w).persistentOn l = s.persistentOn l := rfl
@[simp] theorem hosting_deadlineReached (r : PosRec) :
    (s.hosting h o w).deadlineReached r = s.deadlineReached r := rfl
@[simp] theorem hosting_rangeOf (p : Pos) : (s.hosting h o w).rangeOf p = s.rangeOf p := rfl
@[simp] theorem hosting_isLoaded (x : SettingWord) : (s.hosting h o w).isLoaded x = s.isLoaded x := rfl
@[simp] theorem hosting_rateOf (p : Pos) (a b : Word) : (s.hosting h o w).rateOf p a b = s.rateOf p a b := rfl
@[simp] theorem hosting_bodyRaised : (s.hosting h o w).bodyRaised = s.bodyRaised := rfl
@[simp] theorem hosting_publicationDone (p : Publication) :
    (s.hosting h o w).publicationDone p = s.publicationDone p := rfl

/-! ### The updates of one block -/

theorem sweep_hosting (x : Sweep) :
    ({ s.hosting h o w with sweep := x } : State) = ({ s with sweep := x } : State).hosting h o w := rfl
theorem control_hosting (x : Control) :
    ({ s.hosting h o w with control := x } : State) = ({ s with control := x } : State).hosting h o w := rfl
theorem snoop_hosting (x : Snoop) :
    ({ s.hosting h o w with snoop := x } : State) = ({ s with snoop := x } : State).hosting h o w := rfl

theorem foldl_hosting {α : Type} (f : State → α → State)
    (hf : ∀ (s : State) (x : α), f (s.hosting h o w) x = (f s x).hosting h o w) (l : List α) (s : State) :
    l.foldl f (s.hosting h o w) = (l.foldl f s).hosting h o w := by
  induction l generalizing s with
  | nil => rfl
  | cons x l ih => rw [List.foldl_cons, List.foldl_cons, hf, ih]

@[simp] theorem modPos_hosting (p : Pos) (f : PosRec → PosRec) :
    (s.hosting h o w).modPos p f = (s.modPos p f).hosting h o w := rfl
@[simp] theorem mapPos_hosting (f : Pos → PosRec → PosRec) :
    (s.hosting h o w).mapPos f = (s.mapPos f).hosting h o w := rfl
@[simp] theorem setCopy_hosting (x : SettingWord) (v : Word) :
    (s.hosting h o w).setCopy x v = (s.setCopy x v).hosting h o w := rfl
@[simp] theorem markLoaded_hosting (x : SettingWord) :
    (s.hosting h o w).markLoaded x = (s.markLoaded x).hosting h o w := rfl

/-! ### Notices (R160, R182, R183) -/

@[simp] theorem addWrite_hosting (a : Nat) (d : Word) (g : Origin) :
    (s.hosting h o w).addWrite a d g = (s.addWrite a d g).hosting h o w := rfl

@[simp] theorem placeNotice_hosting (n : Notice) :
    (s.hosting h o w).placeNotice n = (s.placeNotice n).hosting h o w := by
  have hadd : ∀ (u : State) (x : KeptWrite), (u.hosting h o w).addWrite x.offset x.data .notice =
      (u.addWrite x.offset x.data .notice).hosting h o w := fun u x => addWrite_hosting u h o w _ _ _
  by_cases hlost : s.losesNotice n
  · rw [placeNotice_lost hlost, placeNotice_lost (s := s.hosting h o w) hlost]
    rfl
  · rw [placeNotice_ring hlost, placeNotice_ring (s := s.hosting h o w) hlost]
    unfold State.ringed
    rw [foldl_hosting h o w (fun (u : State) (x : KeptWrite) => u.addWrite x.offset x.data .notice) hadd]
    rfl

@[simp] theorem raise_hosting (n : Notice) : (s.hosting h o w).raise n = (s.raise n).hosting h o w := by
  unfold State.raise
  simp only [hosting_control]
  split
  · rfl
  · exact placeNotice_hosting s h o w n
  all_goals rfl

@[simp] theorem notify_hosting (k : NoticeKind) (p : Option Pos) (t : Byte) (i : SensorId) (v : Word) :
    (s.hosting h o w).notify k p t i v = (s.notify k p t i v).hosting h o w := raise_hosting s h o w _

/-! ### Alert records (chapter 6) -/

@[simp] theorem refreshOutputs_hosting (a : Bool) :
    (s.hosting h o w).refreshOutputs a = (s.refreshOutputs a).hosting h o w := rfl
@[simp] theorem setAlert_hosting (p : Pos) (k : AlertKind) (r : AlertRec) (a : Bool) :
    (s.hosting h o w).setAlert p k r a = (s.setAlert p k r a).hosting h o w := rfl
@[simp] theorem alertNotice_hosting (n : NoticeKind) (p : Pos) (k : AlertKind) (l : Level) (v : Int) :
    (s.hosting h o w).alertNotice n p k l v = (s.alertNotice n p k l v).hosting h o w := raise_hosting s h o w _

@[simp] theorem applyMove_hosting (p : Pos) (k : AlertKind) (m : AlertRec × AlertEvent) (v : Int) :
    (s.hosting h o w).applyMove p k m v = (s.applyMove p k m v).hosting h o w := by
  unfold State.applyMove
  split <;> simp only [hosting_sweep, hosting_alertAt, setAlert_hosting, alertNotice_hosting]

@[simp] theorem evaluate_hosting (p : Pos) (k : AlertKind) (r : EvalResult) (v : Int) :
    (s.hosting h o w).evaluate p k r v = (s.evaluate p k r v).hosting h o w := applyMove_hosting s h o w _ _ _ _
@[simp] theorem evalLeak_hosting (p : Pos) (q : Int) :
    (s.hosting h o w).evalLeak p q = (s.evalLeak p q).hosting h o w := evaluate_hosting s h o w _ _ _ _

@[simp] theorem beginSilent_hosting (p : Pos) :
    (s.hosting h o w).beginSilent p = (s.beginSilent p).hosting h o w := by
  unfold State.beginSilent
  simp only [modPos_hosting, hosting_alertAt, hosting_posAt, applyMove_hosting]
  split <;> rfl

@[simp] theorem withdraw_hosting (p : Pos) (k : AlertKind) :
    (s.hosting h o w).withdraw p k = (s.withdraw p k).hosting h o w := by
  unfold State.withdraw
  simp only [hosting_alertAt, setAlert_hosting, alertNotice_hosting]
  split <;> rfl

@[simp] theorem withdrawAll_hosting (p : Pos) :
    (s.hosting h o w).withdrawAll p = (s.withdrawAll p).hosting h o w := by
  unfold State.withdrawAll
  rw [foldl_hosting h o w _ (fun u k => withdraw_hosting u h o w p k), modPos_hosting]

/-! ### The trigger queue and the fire records (chapter 4) -/

@[simp] theorem offer_hosting (r : Request) : (s.hosting h o w).offer r = (s.offer r).hosting h o w := rfl

@[simp] theorem offerEach_hosting (cs : List Coil) (u : Purpose) (t : Byte) :
    (s.hosting h o w).offerEach cs u t = (s.offerEach cs u t).hosting h o w :=
  foldl_hosting h o w _ (fun _ _ => rfl) _ _

@[simp] theorem tearDown_hosting (g : Coil → Bool) :
    (s.hosting h o w).tearDown g = (s.tearDown g).hosting h o w := rfl

@[simp] theorem offerRechecks_hosting :
    (s.hosting h o w).offerRechecks = s.offerRechecks.hosting h o w := offerEach_hosting s h o w _ _ _
@[simp] theorem offerAttaches_hosting :
    (s.hosting h o w).offerAttaches = s.offerAttaches.hosting h o w := offerEach_hosting s h o w _ _ _

/-! ### The arrival tracker (chapter 5) -/

@[simp] theorem locateSilent_hosting (p : Pos) :
    (s.hosting h o w).locateSilent p = (s.locateSilent p).hosting h o w := by
  unfold State.locateSilent
  simp only [hosting_posAt, hosting_persistentOn, offer_hosting]
  split
  · rw [apply_ite (State.hosting · h o w)]
    rfl
  · rfl

@[simp] theorem expire_hosting (p : Pos) : (s.hosting h o w).expire p = (s.expire p).hosting h o w := by
  unfold State.expire
  simp only [modPos_hosting, hosting_posAt, beginSilent_hosting, locateSilent_hosting]
  split <;> rfl

@[simp] theorem expireIfReached_hosting (p : Pos) :
    (s.hosting h o w).expireIfReached p = (s.expireIfReached p).hosting h o w := by
  unfold State.expireIfReached
  simp only [hosting_posAt, hosting_deadlineReached, expire_hosting]
  split <;> rfl

@[simp] theorem setInterval_hosting (p : Pos) (e : Nat) :
    (s.hosting h o w).setInterval p e = (s.setInterval p e).hosting h o w := by
  unfold State.setInterval
  simp only [hosting_posAt, modPos_hosting, expireIfReached_hosting]
  split <;> rfl

@[simp] theorem clampInterval_hosting (p : Pos) :
    (s.hosting h o w).clampInterval p = (s.clampInterval p).hosting h o w := by
  unfold State.clampInterval
  simp only [hosting_posAt, hosting_rangeOf, setInterval_hosting]
  split <;> rfl

@[simp] theorem clampAll_hosting : (s.hosting h o w).clampAll = s.clampAll.hosting h o w :=
  foldl_hosting h o w _ (fun u p => clampInterval_hosting u h o w p) _ _

@[simp] theorem recomputeDeadlines_hosting : (s.hosting h o w).recomputeDeadlines = s.recomputeDeadlines.hosting h o w :=
  foldl_hosting h o w _ (fun u p => expireIfReached_hosting u h o w p) _ _

/-! ### The position table and the layout (chapter 1) -/

@[simp] theorem clearRecheck_hosting (p : Pos) (c : Cause) :
    (s.hosting h o w).clearRecheck p c = (s.clearRecheck p c).hosting h o w := by
  unfold State.clearRecheck
  dsimp only
  rw [hosting_posAt, apply_ite (State.hosting · h o w)]
  cases (s.posAt p).id <;> rfl

@[simp] theorem withdrawPair_hosting (p : Pos) :
    (s.hosting h o w).withdrawPair p = (s.withdrawPair p).hosting h o w := by
  unfold State.withdrawPair
  simp only [hosting_layout, withdraw_hosting]
  split <;> rfl

@[simp] theorem giveUp_hosting (p : Pos) (b : BindState) (c : Cause) :
    (s.hosting h o w).giveUp p b c = (s.giveUp p b c).hosting h o w := by
  simp only [State.giveUp, withdrawAll_hosting, withdrawPair_hosting, clearRecheck_hosting, modPos_hosting]

@[simp] theorem leaveUse_hosting (p : Pos) (b : BindState) :
    (s.hosting h o w).leaveUse p b = (s.leaveUse p b).hosting h o w := by
  unfold State.leaveUse
  simp only [hosting_posAt, giveUp_hosting, notify_hosting, withdrawAll_hosting, clearRecheck_hosting, modPos_hosting]
  split <;> rfl

@[simp] theorem relayPosition_hosting (old new : Word) (p : Pos) :
    State.relayPosition old new (s.hosting h o w) p = (State.relayPosition old new s p).hosting h o w := by
  unfold State.relayPosition
  simp only [leaveUse_hosting]
  split
  · split
    · split <;> rfl
    · rfl
  · split <;> rfl

@[simp] theorem relayAxlePosition_hosting (old new : Word) (p : Pos) :
    State.relayAxlePosition old new (s.hosting h o w) p = (State.relayAxlePosition old new s p).hosting h o w := by
  have hleft (u : State) (c : Prop) [Decidable c] :
      (if c then (u.hosting h o w).withdraw p .mismatch else u.hosting h o w) =
        (if c then u.withdraw p .mismatch else u).hosting h o w := by
    rw [withdraw_hosting, apply_ite (State.hosting · h o w)]
  unfold State.relayAxlePosition
  split
  · rfl
  · split
    · dsimp only
      rw [← hleft]
      simp only [hosting_posAt, modPos_hosting, apply_ite (State.hosting · h o w)]
      rfl
    · rfl

@[simp] theorem takeLayout_hosting (old new : Word) :
    (s.hosting h o w).takeLayout old new = (s.takeLayout old new).hosting h o w := by
  have hcoils : ∀ u : State, (u.hosting h o w).recheckAfterLayout old new = u.recheckAfterLayout old new := fun _ => rfl
  simp only [State.takeLayout, foldl_hosting h o w _ (fun u p => relayPosition_hosting u h o w old new p),
    foldl_hosting h o w _ (fun u p => relayAxlePosition_hosting u h o w old new p), tearDown_hosting, clampAll_hosting,
    offerEach_hosting, hcoils]

/-! ### The sweep unit (chapter 7) -/

@[simp] theorem completeTrend_hosting (p : Pos) (a b : Word) :
    (s.hosting h o w).completeTrend p a b = (s.completeTrend p a b).hosting h o w := by
  unfold State.completeTrend
  simp only [hosting_rateOf, modPos_hosting, evalLeak_hosting]
  split <;> rfl

@[simp] theorem finishTrend_hosting (t : TrendRead) :
    (s.hosting h o w).finishTrend t = (s.finishTrend t).hosting h o w := by
  unfold State.finishTrend
  split
  · exact completeTrend_hosting ..
  · rfl

@[simp] theorem trendResult_hosting (a : Nat) (v : Word) :
    (s.hosting h o w).trendResult a v = (s.trendResult a v).hosting h o w := by
  unfold State.trendResult
  simp only [sweep_hosting, foldl_hosting h o w _ (fun u t => finishTrend_hosting u h o w t)]
  rfl

@[simp] theorem offerTrend_hosting (a : Nat) :
    (s.hosting h o w).offerTrend a = (s.offerTrend a).hosting h o w := by
  unfold State.offerTrend
  rw [hosting_queue]
  split
  · exact trendResult_hosting ..
  · rw [apply_ite (State.hosting · h o w)]
    rfl

@[simp] theorem setUpTrend_hosting : (s.hosting h o w).setUpTrend = s.setUpTrend.hosting h o w := by
  unfold State.setUpTrend
  dsimp only
  rw [sweep_hosting, foldl_hosting h o w _ (fun u a => offerTrend_hosting u h o w a), apply_ite (State.hosting · h o w)]
  rfl

@[simp] theorem restartHistory_hosting : (s.hosting h o w).restartHistory = s.restartHistory.hosting h o w := rfl

@[simp] theorem attempted_hosting (p : Publication) :
    (s.hosting h o w).attempted p = (s.attempted p).hosting h o w := by
  have hdecided : (s.hosting h o w).decided p = (s.decided p).hosting h o w := rfl
  rw [attempted_eq, attempted_eq, hdecided, hosting_sweep]
  split
  · rw [notify_hosting]
    rfl
  · rfl

@[simp] theorem flipAttempt_hosting (p : Publication) :
    (s.hosting h o w).flipAttempt p = (s.flipAttempt p).hosting h o w := by
  rw [flipAttempt_eq, flipAttempt_eq, attempted_hosting, setUpTrend_hosting]
  split <;> rfl

@[simp] theorem tryFlip_hosting : (s.hosting h o w).tryFlip = s.tryFlip.hosting h o w := by
  unfold State.tryFlip
  simp only [hosting_sweep, hosting_publicationDone, flipAttempt_hosting]
  split
  · rfl
  · split <;> rfl

/-! ### The settings load (chapters 8 and 10) -/

theorem writeParked_hosting : (s.hosting h o w).writeParked = s.writeParked.hosting h o w := by
  unfold State.writeParked
  simp only [control_hosting, foldl_hosting h o w _ (fun u n => placeNotice_hosting u h o w n)]
  rfl

theorem offerOnEntry_hosting : (s.hosting h o w).offerOnEntry = s.offerOnEntry.hosting h o w := by
  unfold State.offerOnEntry
  rw [hosting_control, offerAttaches_hosting]
  cases s.control.refTrl <;>
  · dsimp only
    rw [apply_ite (State.hosting · h o w), ← offerRechecks_hosting]
    rfl

theorem enterRun_hosting : (s.hosting h o w).enterRun = s.enterRun.hosting h o w := by
  have hrunning : (s.hosting h o w).running = s.running.hosting h o w := rfl
  have hready (u : State) : (u.hosting h o w).ready = u.ready.hosting h o w := rfl
  rw [enterRun_eq, enterRun_eq, hrunning, writeParked_hosting, hready, offerOnEntry_hosting]

theorem completeLoad_hosting : (s.hosting h o w).completeLoad = s.completeLoad.hosting h o w := by
  unfold State.completeLoad
  rw [control_hosting, enterRun_hosting, apply_ite (State.hosting · h o w)]
  rfl

@[simp] theorem applySetting_hosting (x : SettingWord) (old new : Word) :
    (s.hosting h o w).applySetting x old new = (s.applySetting x old new).hosting h o w := by
  have hbody (b : Bool) : (s.hosting h o w).takeBody b = (s.takeBody b).hosting h o w := by
    unfold State.takeBody
    rw [hosting_bodyRaised]
    split <;> rfl
  have hrestart : (s.hosting h o w).restartIfChanged old new = (s.restartIfChanged old new).hosting h o w := by
    unfold State.restartIfChanged
    split <;> rfl
  unfold State.applySetting
  split
  · exact takeLayout_hosting ..
  · rfl
  · rw [hbody, clampAll_hosting]
  · exact clampAll_hosting ..
  · exact clampAll_hosting ..
  · rfl
  · exact recomputeDeadlines_hosting ..
  · rfl
  · rfl
  · exact hrestart
  · exact hrestart
  all_goals rfl

theorem takeSetting_hosting (x : SettingWord) (v : Word) :
    (s.hosting h o w).takeSetting x v = (s.takeSetting x v).hosting h o w := by
  unfold State.takeSetting
  simp only [hosting_setting, hosting_copy, setCopy_hosting, applySetting_hosting]
  split
  · rfl
  · unfold State.refuseSetting
    rw [snoop_hosting]
    exact notify_hosting ..

theorem takeLoaded_hosting (x : SettingWord) (v : Word) :
    (s.hosting h o w).takeLoaded x v = (s.takeLoaded x v).hosting h o w := by
  unfold State.takeLoaded
  simp only [hosting_isLoaded, takeSetting_hosting, markLoaded_hosting, completeLoad_hosting]
  split <;> rfl

theorem loadResult_hosting (a : Nat) (v : Word) :
    (s.hosting h o w).loadResult a v = (s.loadResult a v).hosting h o w := by
  unfold State.loadResult
  split
  · exact takeLoaded_hosting ..
  · rfl

/-! ### The completion of a part access (R167, R172) -/

theorem report_hosting (e : QEntry) (v : Word) :
    (s.hosting h o w).report e v = (s.report e v).hosting h o w := by
  unfold State.report
  split
  · exact tryFlip_hosting ..
  · rfl
  · exact trendResult_hosting ..
  · exact loadResult_hosting ..

/-- R172: the completion of a part access does the same whatever host transaction is held behind it. -/
theorem completeAccess_hosting : (s.hosting h o w).completeAccess = s.completeAccess.hosting h o w := by
  cases hb : s.path.bus with
  | none => rw [completeAccess_idle hb, completeAccess_idle (s := s.hosting h o w) hb]
  | some b =>
    have hdone : (s.hosting h o w).accessDone b = (s.accessDone b).hosting h o w := rfl
    cases hr : b.reported with
    | true =>
      rw [completeAccess_reported hb hr, completeAccess_reported (s := s.hosting h o w) hb hr, hdone]
      exact report_hosting ..
    | false => rw [completeAccess_abandoned hb hr, completeAccess_abandoned (s := s.hosting h o w) hb hr, hdone]

end

/-- R172: the completion of a part access keeps the host transaction that is held, the access owed before it, and those
that wait. -/
theorem completeAccess_host (s : State) : s.completeAccess.path.held = s.path.held ∧
    s.completeAccess.path.owed = s.path.owed ∧ s.completeAccess.path.waiting = s.path.waiting := by
  have hsame := completeAccess_hosting s s.path.held s.path.owed s.path.waiting
  rw [hosting_self] at hsame
  rw [hsame]
  exact ⟨rfl, rfl, rfl⟩

end Sys2Proof.Machine
end

section
/-! Host transactions that nothing holds up (R163 to R166, R171, R175): a transaction that is carried at once is written out
by one equation for each shape, which the obligations read off. -/

namespace Sys2Proof.Machine
open Sys2Proof.Claim

/-! ### A transaction that is carried at once (R163, R172) -/

section
variable {s : State} {t : HostTxn} {x : BusTxn}

theorem present_carried (h : memoryFree s) (hx : s.resolve t = some x) : s.present t = s.carry x := by
  obtain ⟨hheld, hbus, hover⟩ := h
  exact (present_free s t hheld hbus hover).1 x hx

theorem present_zeros (h : memoryFree s) (hx : s.resolve t = none) :
    s.present t = { s with ports := { s.ports with hostData := List.replicate t.wordCount 0 } } := by
  obtain ⟨hheld, hbus, hover⟩ := h
  exact (present_free s t hheld hbus hover).2 hx

theorem memoryFree_elapse (dt : Nat) (h : memoryFree s) : memoryFree (s.elapse dt) := h

end

theorem readStart_aligned {r : ReadShape} {a : Nat} (h : r.aligned a = true) : readStart r a = a := by
  cases r <;> simp only [ReadShape.aligned, beq_iff_eq] at h <;> simp only [readStart] <;> omega

theorem writeStart_aligned {d : HostData} {a : Nat} (h : d.aligned a = true) : writeStart d a = a := by
  cases d <;> simp only [HostData.aligned, beq_iff_eq] at h <;> simp only [writeStart] <;> omega

/-! ### Reads (R165, R171) -/

/-- R163, R165: the words that a host read returns. -/
def State.wordsRead (s : State) (a n : Nat) : List Word :=
  match s.windowOffset a with
  | none => (List.range n).map (fun i => readWord s.mem (a + 4 * i))
  | some o =>
    match s.readTarget o with
    | none => List.replicate n 0
    | some f =>
      (List.range n).map (fun i =>
        (pendingWrite s.path.queue (f + 4 * i)).getD (readWord s.mem (s.windowBase + f + 4 * i)))

/-- R163, R165, R171: a host read that nothing holds up changes the ports only, and returns its words. -/
theorem present_read {s : State} (h : memoryFree s) (a : Nat) (en : BitVec 4) (n : Nat) :
    ∃ p : Ports, s.present (.read a en n) = { s with ports := p } ∧ p.hostData = s.wordsRead a n := by
  cases ho : s.windowOffset a with
  | none =>
    have hx : s.resolve (.read a en n) = some (.read a none en n) := by simp only [State.resolve, ho]
    exact ⟨_, present_carried h hx, by simp only [State.wordsRead, ho]; rfl⟩
  | some o =>
    cases hf : s.readTarget o with
    | none =>
      have hx : s.resolve (.read a en n) = none := by simp only [State.resolve, ho, hf]; rfl
      exact ⟨_, present_zeros h hx, by simp only [State.wordsRead, ho, hf]; rfl⟩
    | some f =>
      have hx : s.resolve (.read a en n) = some (.read (s.windowBase + f) (some f) en n) := by
        simp only [State.resolve, ho, hf]
        rfl
      exact ⟨_, present_carried h hx, by simp only [State.wordsRead, ho, hf]; rfl⟩

/-- Settles O35: the three shapes of a host read are the three rows of `State.wordsRead`. -/
theorem hostReadsReturnTheirWords : Obligations.HostReadsReturnTheirWords := by
  intro dt addr en shape s hfree haligned
  obtain ⟨p, hp, hdata⟩ := present_read (memoryFree_elapse dt hfree) addr.toNat en (readCount shape)
  have hexec : exec (.hostRead dt addr en shape) s = .next { s.elapse dt with ports := p } := by
    rw [← hp]
    change Host.Outcome.next ((s.elapse dt).present _) = _
    rw [readStart_aligned haligned]
  refine ⟨_, hexec, rfl, fun ho => ?outside, fun o ho => ⟨fun hf => ?zeros, fun f hf => ?word⟩⟩ <;> refine hdata.trans ?_
  case outside =>
    have ho' : (s.elapse dt).windowOffset addr.toNat = none := ho
    simp only [State.wordsRead, ho']
    rfl
  case zeros =>
    have ho' : (s.elapse dt).windowOffset addr.toNat = some o := ho
    have hf' : (s.elapse dt).readTarget o = none := hf
    simp only [State.wordsRead, ho', hf']
  case word =>
    have ho' : (s.elapse dt).windowOffset addr.toNat = some o := ho
    have hf' : (s.elapse dt).readTarget o = some f := hf
    simp only [State.wordsRead, ho', hf']
    rfl

/-! ### The views (R143, R148, R165) -/

theorem regionOf_trendView {o : Nat} (h : 0xA000 ≤ o) : regionOf o = .trendView := by
  unfold regionOf
  repeat rw [if_neg (by omega)]

theorem regionOf_aperture {o : Nat} (h : 0x800 ≤ o) (h' : o < 0x1000) : regionOf o = .aperture := by
  unfold regionOf
  rw [if_neg (by omega), if_neg (by omega), if_pos (by omega)]

/-- R143: the column of an age lies `age` columns before the head, round the ring. -/
theorem columnOfAge_add (head depth age : Nat) (h : 0 < depth) :
    columnOfAge head depth age < depth ∧ (columnOfAge head depth age + age) % depth = head % depth := by
  refine ⟨Nat.mod_lt _ h, ?_⟩
  have hage : age % depth < depth := Nat.mod_lt _ h
  unfold columnOfAge
  calc ((head + depth - age % depth) % depth + age) % depth
      = ((head + depth - age % depth) + age % depth) % depth := by rw [Nat.mod_add_mod, Nat.add_mod_mod]
    _ = (head + depth) % depth := by rw [Nat.sub_add_cancel (by omega)]
    _ = head % depth := Nat.add_mod_right ..

/-- Settles O36: an offset of a view names its column and its byte, and the translation is that of R148 and R165. -/
theorem viewsFollowTheTranslationState : Obligations.ViewsFollowTheTranslationState := by
  refine ⟨?trend, ?aperture⟩
  case trend =>
    intro s v b hv hb d age
    have hregion : regionOf (0xA000 + v * 256 + b) = .trendView := regionOf_trendView (by omega)
    have hcolumn : (0xA000 + v * 256 + b - 0xA000) / 0x100 = v := by omega
    have hbyte : (0xA000 + v * 256 + b) % 0x100 = b := by omega
    have htarget : s.readTarget (0xA000 + v * 256 + b) =
        if d ≤ v then none else if s.sweep.written ≤ age then none
          else some (columnBase (columnOfAge s.sweep.head d age) + b) := by
      simp only [State.readTarget, hregion, trendTarget, hcolumn, hbyte]
      rfl
    rw [htarget]
    refine ⟨fun h => if_pos h, fun hlt hw => ?_, fun hlt hw => ?_⟩
    · rw [if_neg (by omega), if_pos hw]
    · obtain ⟨hc, hsum⟩ := columnOfAge_add s.sweep.head d age (by omega)
      rw [if_neg (by omega), if_neg (by omega)]
      exact ⟨_, by rw [columnBase, Nat.mul_comm 0x100], hc, hsum⟩
  case aperture =>
    intro s o hlo hhi
    have htarget : s.readTarget o = apertureTarget s.sweep.published s.sweep.front o := by
      simp only [State.readTarget, regionOf_aperture hlo hhi]
    rw [htarget, apertureTarget]
    refine ⟨fun h => ?_, fun h hfront => ?_, fun h hfront => ?_⟩
    · rw [h]
      rfl
    · rw [h, hfront]
      rfl
    · rw [h, hfront]
      rfl

/-! ### Writes (R163 to R166) -/

section
variable {s : State} {d : HostData} {a : Nat}

/-- R163, R164: a write outside the window or into a scratch region is carried unchanged. -/
theorem hostWrites_passed (h : memoryFree s) (ha : d.aligned a = true)
    (ho : s.windowOffset a = none ∨ ∃ o, s.windowOffset a = some o ∧ regionOf o = .scratch) :
    s.hostWrites a d = s.carryWrite a (hostWords d) := by
  rw [State.hostWrites, writeStart_aligned ha]
  obtain ho | ⟨o, ho, hregion⟩ := ho
  · exact present_carried (x := .write .passed a 0 (hostWords d)) h (by simp only [State.resolve, ho])
  · exact present_carried (x := .write .passed a o (hostWords d)) h (by
      simp only [State.resolve, ho, hregion, Region.writeClass])

/-- R166: a write into a region that the part owns is carried suppressed. -/
theorem hostWrites_suppressed {o : Nat} (h : memoryFree s) (ha : d.aligned a = true) (ho : s.windowOffset a = some o)
    (hclass : (regionOf o).writeClass = .suppressed) : s.hostWrites a d = s.carrySuppressed a (hostWords d) := by
  rw [State.hostWrites, writeStart_aligned ha]
  exact present_carried (x := .write .suppressed a o (hostWords d)) h (by simp only [State.resolve, ho, hclass])

end

/-- Settles O37: the carried write is the laws of the static memory. -/
theorem passedWriteReachesMemory : Obligations.PassedWriteReachesMemory := by
  intro dt addr d s hfree haligned ho
  have hexec : exec (.hostWrite dt addr d) s = .next ((s.elapse dt).carryWrite addr.toNat (hostWords d)) :=
    congrArg Host.Outcome.next (hostWrites_passed (memoryFree_elapse dt hfree) haligned ho)
  refine ⟨_, hexec, rfl, fun b hb => memRead_writeWords_outside _ _ _ _ hb, rfl, fun w hw hwf i => ?_⟩
  subst hw
  exact memRead_writeWord_byte s.mem addr.toNat w hwf i

/-! ### The record of refused words (R166) -/

theorem refuse_refused (p : Path) (a : Nat) (w : HostWord) :
    (p.refuse a w).refused = if w.enables = 0 then p.refused else min 65535 (p.refused + 1) := by
  unfold Path.refuse
  split <;> rfl

theorem refuse_lastRefused (p : Path) (a : Nat) (w : HostWord) :
    (p.refuse a w).lastRefused = if w.enables = 0 then p.lastRefused else some (BitVec.ofNat 24 a) := by
  unfold Path.refuse
  split <;> rfl

/-- R166: each word with an enable on is counted, up to the saturation. -/
theorem refuseAll_refused (ws : List HostWord) (p : Path) (a : Nat) (h : p.refused ≤ 65535) :
    (p.refuseAll a ws).refused = min 65535 (p.refused + (ws.filter (fun w => w.enables != 0)).length) := by
  induction ws generalizing p a with
  | nil => exact (Nat.min_eq_right h).symm
  | cons w ws ih =>
    have hw := refuse_refused p a w
    rw [Path.refuseAll]
    by_cases hen : w.enables = 0
    · rw [if_pos hen] at hw
      rw [ih _ _ (by omega), hw, List.filter_cons_of_neg (by rw [hen]; decide)]
    · rw [if_neg hen] at hw
      have hkept : (w.enables != 0) = true := bne_iff_ne.mpr hen
      rw [ih _ _ (by omega), hw, List.filter_cons, if_pos hkept, List.length_cons]
      omega

/-- Settles O38: a suppressed write changes the record of refused words and the memory port. -/
theorem suppressedWriteNeverChangesMemory : Obligations.SuppressedWriteNeverChangesMemory := by
  intro dt o addr d s hfree haligned ho hclass
  have hexec : exec (.suppressedWrite dt addr d) s =
      .next ((s.elapse dt).carrySuppressed addr.toNat (hostWords d)) :=
    congrArg Host.Outcome.next (hostWrites_suppressed (memoryFree_elapse dt hfree) haligned ho hclass)
  refine ⟨_, hexec, rfl, rfl, refuseAll_refused _ _ _, fun w hw => ?single, fun w0 w1 w2 w3 hd hen => ?burst, rfl,
    refuseAll_queue _ _ _⟩
  case single =>
    subst hw
    refine (refuse_lastRefused s.path addr.toNat w).trans ?_
    rw [BitVec.ofNat_toNat, BitVec.setWidth_eq]
  case burst =>
    subst hd
    refine (refuse_lastRefused _ (addr.toNat + 4 + 4 + 4) w3).trans ?_
    rw [if_neg hen, Nat.add_assoc, Nat.add_assoc, BitVec.ofNat_add, BitVec.ofNat_toNat, BitVec.setWidth_eq]
    rfl

/-! ### The settings page (R175) -/

/-- R163, R175: a write of one word of the settings page that is carried at once. -/
theorem hostWrites_setting {s : State} (h : memoryFree s) (o : Nat) (w : HostWord) (ho : o < 0x400) (ha : o % 4 = 0) :
    s.hostWrites (s.windowBase + o) (.single w) = (s.carryWrite (s.windowBase + o) [w]).takeWord o w := by
  obtain ⟨hheld, hbus, hover⟩ := h
  have hstart : writeStart (.single w) (s.windowBase + o) = s.windowBase + o := by
    simp only [writeStart, State.windowBase]
    omega
  rw [State.hostWrites, hstart]
  exact writesSetting_free s o w ho hheld hbus hover

theorem takesWrites_false {op : OpState} (h : op = .reset ∨ op = .watch ∨ op = .deepWatch) : op.takesWrites = false := by
  obtain rfl | rfl | rfl := h <;> rfl

/-- Settles O41: out of LOADING and RUN the snoop takes no word. -/
theorem writesOutOfLoadingAndRunAreNotTaken : Obligations.WritesOutOfLoadingAndRunAreNotTaken := by
  intro dt offset w s hop hfree haligned
  have hexec : exec (.settingsWrite dt offset (.single w)) s =
      .next ((s.elapse dt).carryWrite (s.windowBase + offset.toNat) [w]) := by
    change Host.Outcome.next ((s.elapse dt).hostWrites ((s.elapse dt).windowBase + offset.toNat) (.single w)) = _
    rw [hostWrites_setting (memoryFree_elapse dt hfree) _ w (by omega) haligned]
    exact congrArg Host.Outcome.next (if_pos (Or.inl (takesWrites_false hop)))
  exact ⟨_, hexec, rfl, rfl⟩

end Sys2Proof.Machine
end

section
/-! The outbound queue on its way to memory (R136, R163, R167, R168, R172, R183, R185): the issue of the head, the completion
of an access with its report, and the host transaction that is held behind it. -/

namespace Sys2Proof.Machine
open Sys2Proof.Claim

/-! ### A WRITE that joins the queue (R168, R169) -/

theorem pendingOrigin_eq_none {q : List QEntry} {o : Nat} (h : pendingWrite q o = none) : pendingOrigin q o = none := by
  induction q with
  | nil => rfl
  | cons e q ih =>
    unfold pendingWrite at h
    unfold pendingOrigin
    split at h
    · split at h
      · exact absurd h (by simp)
      · next hne => simp only [hne, if_false, ih h]
    · exact ih h

/-- R169: a WRITE for an offset that is pending nowhere joins the tail. -/
theorem addWrite_new {s : State} {o : Nat} (d : Word) (g : Origin) (h : pendingWrite s.path.queue o = none) :
    s.addWrite o d g = { s with path := { s.path with
      queue := s.path.queue ++ [{ access := .write d, offset := o, origin := g }] } } := by
  have hqueue : queueWrite s.path.queue o d g = s.path.queue ++ [{ access := .write d, offset := o, origin := g }] :=
    if_neg (by rw [h]; exact Bool.false_ne_true)
  unfold State.addWrite
  rw [hqueue, pendingOrigin_eq_none h]
  rfl

theorem admits_iff {s : State} : s.admits = true ↔ s.control.refHup = true ∧ s.control.op ≠ .reset := by
  simp [State.admits]

/-- R168: a producer's entry needs more than 8 free places. -/
theorem roomForProducer_iff {s : State} : s.roomForProducer = true ↔ s.admits = true ∧ s.path.queue.length ≤ 39 := by
  have hfree : Config.noticeReserve < s.freePlaces ↔ s.path.queue.length ≤ 39 := by
    simp only [State.freePlaces, Config.noticeReserve, Config.queuePlaces]
    omega
  rw [State.roomForProducer, Bool.and_eq_true, decide_eq_true_iff, hfree]

/-! ### The kept writes of a publication (R136, R168) -/

/-- R168: the sweep unit keeps writes, so it is the producer that offers again. -/
theorem reofferKept_publish {s : State} {q : Publication} {w : KeptWrite} {ws : List KeptWrite}
    (hq : s.sweep.publication = some q) (hk : q.kept = w :: ws) : s.reofferKept = s.reofferPublish q := by
  have hkeeps : s.sweep.keepsWrites = true := by
    rw [Sweep.keepsWrites, hq]
    simp [hk]
  rw [State.reofferKept, if_pos hkeeps, hq]

/-- Settles O29: the offset is pending nowhere, so that the room alone decides. -/
theorem keptWriteIsOfferedAgain : Obligations.KeptWriteIsOfferedAgain := by
  intro dt q w ws s hhup hop hq hk hnew
  have hadmits : s.admits = true := admits_iff.mpr ⟨hhup, hop⟩
  have hexec : exec (.keptEntryReoffer dt) s = .next ((s.elapse dt).reofferPublish q) :=
    congrArg Host.Outcome.next (reofferKept_publish (s := s.elapse dt) hq hk)
  rw [hexec]
  unfold State.reofferPublish
  rw [hk]
  dsimp only
  have hroom : ((s.elapse dt).admits && ((pendingWrite (s.elapse dt).path.queue w.offset).isSome ||
      (s.elapse dt).roomForProducer)) = s.roomForProducer := by
    change (s.admits && ((pendingWrite s.path.queue w.offset).isSome || s.roomForProducer)) = _
    rw [hadmits, hnew]
    simp
  rw [hroom]
  refine ⟨fun hlen => ?_, fun hlen => ?_⟩
  · rw [if_pos (roomForProducer_iff.mpr ⟨hadmits, hlen⟩)]
    exact congrArg Host.Outcome.next (addWrite_new (s := { s.elapse dt with
      sweep := { s.sweep with publication := some { q with kept := ws } } }) w.data .publish hnew)
  · rw [if_neg fun hr => absurd (roomForProducer_iff.mp hr).2 (by omega)]

/-! ### The held host transaction behind an access (R172) -/

theorem release_none {s : State} (h : s.path.held = none) : s.release = s := by rw [State.release, h]

/-- R172: with no host transaction held the completion of an access releases none. -/
theorem completeAccess_release_none {s : State} (h : s.path.held = none) : s.completeAccess.release = s.completeAccess := by
  obtain ⟨hheld, -, -⟩ := completeAccess_host s
  exact release_none (hheld.trans h)

theorem exec_partAccessComplete {s : State} {b : Issued} (dt : Nat) (h : s.path.bus = some b) :
    exec (.partAccessComplete dt) s = .next (s.elapse dt).completeAccess.release :=
  congrArg Host.Outcome.next (if_pos (by rw [elapse_path, h]; rfl))

/-- R167, R172: the completion of an access behind which no host transaction is held. -/
theorem exec_partAccessComplete_free {s : State} {b : Issued} (dt : Nat) (hb : s.path.bus = some b)
    (hheld : s.path.held = none) : exec (.partAccessComplete dt) s = .next (s.elapse dt).completeAccess := by
  rw [exec_partAccessComplete dt hb, completeAccess_release_none (s := s.elapse dt) hheld]

/-! ### What a completion leaves to the host (R167, R172) -/

/-- A part's own work neither takes HWAIT_N from the part nor puts an access on the bus. -/
structure Onward (s t : State) : Prop where
  canHold : t.canHold = s.canHold
  bus : s.path.bus = none → t.path.bus = none

theorem Onward.refl (s : State) : Onward s s := ⟨rfl, id⟩

theorem Onward.trans {s t u : State} (h : Onward s t) (k : Onward t u) : Onward s u :=
  ⟨k.canHold.trans h.canHold, fun hs => k.bus (h.bus hs)⟩

theorem Onward.of_base {s t : State} (h : t.base = s.base) : Onward s t :=
  ⟨congrArg (fun b : Base => b.refHup && b.op != .reset) h, fun hs => (congrArg Base.bus h).trans hs⟩

theorem Onward.foldl {α : Type} {f : State → α → State} (h : ∀ s x, Onward s (f s x)) (l : List α) (s : State) :
    Onward s (l.foldl f s) := by
  induction l generalizing s with
  | nil => exact Onward.refl s
  | cons x l ih => exact (h s x).trans (ih _)

/-- The sweep unit is no part of the memory path or of state control. -/
theorem Onward.sweep (s : State) (x : Sweep) : Onward s { s with sweep := x } := ⟨rfl, id⟩

theorem discardTrend_onward (s : State) : Onward s s.discardTrend :=
  ⟨rfl, fun h => (congrArg (Option.map _) h : s.discardTrend.path.bus = _)⟩

theorem finishTrend_onward (s : State) (t : TrendRead) : Onward s (s.finishTrend t) := by
  have hrate (u : State) (p : Pos) (f : PosRec → PosRec) (q : Int) : Onward u ((u.modPos p f).evalLeak p q) :=
    Onward.of_base (by simp)
  unfold State.finishTrend State.completeTrend
  split
  · split
    · exact Onward.refl s
    · exact hrate ..
  · exact Onward.refl s

theorem trendResult_onward (s : State) (o : Nat) (w : Word) : Onward s (s.trendResult o w) :=
  (Onward.sweep s _).trans (Onward.foldl finishTrend_onward _ _)

theorem offerTrend_onward (s : State) (o : Nat) : Onward s (s.offerTrend o) := by
  have hread (q : List QEntry) : Onward s { s with path := { s.path with queue := q } } := ⟨rfl, id⟩
  unfold State.offerTrend
  split
  · exact trendResult_onward ..
  · split
    · exact hread _
    · exact Onward.sweep ..

theorem setUpTrend_onward (s : State) : Onward s s.setUpTrend := by
  unfold State.setUpTrend
  dsimp only
  split
  · exact (Onward.sweep s _).trans (Onward.foldl offerTrend_onward _ _)
  · exact Onward.refl s

theorem attempted_onward (s : State) (p : Publication) : Onward s (s.attempted p) := by
  have hdecided : Onward s (s.decided p) := ⟨rfl, id⟩
  have hended (u : State) : Onward u u.unpublished := ⟨rfl, id⟩
  rw [attempted_eq]
  split
  · exact hdecided.trans ((Onward.of_base (notify_base ..)).trans (hended _))
  · exact hdecided.trans (hended _)

theorem tryFlip_onward (s : State) : Onward s s.tryFlip := by
  unfold State.tryFlip
  split
  · exact Onward.refl s
  · next p _ =>
    split
    · rw [flipAttempt_eq]
      split
      · exact attempted_onward s p
      · exact (attempted_onward s p).trans (setUpTrend_onward _)
    · exact Onward.refl s

theorem restartHistory_onward (s : State) : Onward s s.restartHistory := by
  have h (u : State) (x : Sweep) (y : Snoop) : Onward u { u with sweep := x, snoop := y } := ⟨rfl, id⟩
  exact (discardTrend_onward s).trans (h ..)

theorem enterRun_onward {s : State} (h : s.control.op ≠ .reset) : Onward s s.enterRun := by
  have hrunning : Onward s s.running := ⟨by
    rw [State.canHold, State.canHold, bne_iff_ne.mpr h]
    rfl, id⟩
  have hparked (u : State) (x : Control) (hh : x.refHup = u.control.refHup) (ho : x.op = u.control.op) :
      Onward u { u with control := x } := ⟨by rw [State.canHold, State.canHold, hh, ho], id⟩
  have hready (u : State) : Onward u u.ready := ⟨rfl, id⟩
  have hentry (u : State) : Onward u u.offerOnEntry := Onward.of_base (by
    unfold State.offerOnEntry
    dsimp only
    split <;> split <;> simp)
  have hwritten (u : State) : Onward u u.writeParked :=
    (hparked u { u.control with parked := [], parkedWritten := true } rfl rfl).trans
      (Onward.foldl (fun u n => Onward.of_base (placeNotice_base u n)) _ _)
  rw [enterRun_eq]
  exact hrunning.trans ((hwritten _).trans ((hready _).trans (hentry _)))

theorem completeLoad_onward (s : State) : Onward s s.completeLoad := by
  have hloaded : Onward s { s with control := { s.control with settingsLoaded := true } } := ⟨rfl, id⟩
  unfold State.completeLoad
  split
  · next h => exact hloaded.trans (enterRun_onward (by rw [h.1]; decide))
  · exact Onward.refl s

theorem applySetting_onward (s : State) (w : SettingWord) (o n : Word) : Onward s (s.applySetting w o n) := by
  have hbody (b : Bool) : Onward s (s.takeBody b) := by
    unfold State.takeBody
    split
    · exact Onward.refl s
    · exact ⟨rfl, id⟩
  have hrestart : Onward s (s.restartIfChanged o n) := by
    unfold State.restartIfChanged
    split
    · exact Onward.refl s
    · exact restartHistory_onward s
  unfold State.applySetting
  split
  · exact Onward.of_base (by simp)
  · exact Onward.of_base (by simp)
  · exact (hbody _).trans (Onward.of_base (clampAll_base _))
  · exact Onward.of_base (by simp)
  · exact Onward.of_base (by simp)
  · exact Onward.of_base (by simp)
  · exact Onward.of_base (by simp)
  · exact Onward.of_base (by simp)
  · exact Onward.of_base (by simp)
  · exact hrestart
  · exact hrestart
  all_goals exact Onward.refl s

theorem takeSetting_onward (s : State) (w : SettingWord) (v : Word) : Onward s (s.takeSetting w v) := by
  have hcopy : Onward s (s.setCopy w v) := ⟨rfl, id⟩
  have hoffset (x : Snoop) : Onward s { s with snoop := x } := ⟨rfl, id⟩
  unfold State.takeSetting
  split
  · exact hcopy.trans (applySetting_onward ..)
  · exact (hoffset _).trans (Onward.of_base (notify_base ..))

theorem loadResult_onward (s : State) (o : Nat) (v : Word) : Onward s (s.loadResult o v) := by
  have hmark (u : State) (w : SettingWord) : Onward u (u.markLoaded w) := ⟨rfl, id⟩
  unfold State.loadResult State.takeLoaded
  split
  · split
    · exact Onward.refl s
    · exact (takeSetting_onward ..).trans ((hmark ..).trans (completeLoad_onward _))
  · exact Onward.refl s

theorem report_onward (s : State) (e : QEntry) (w : Word) : Onward s (s.report e w) := by
  unfold State.report
  split
  · exact tryFlip_onward s
  · exact ⟨rfl, id⟩
  · exact trendResult_onward ..
  · exact loadResult_onward ..

theorem completeAccess_onward {s : State} {b : Issued} (hb : s.path.bus = some b) :
    Onward (s.accessDone b) s.completeAccess := by
  cases hr : b.reported with
  | true =>
    rw [completeAccess_reported hb hr]
    exact report_onward ..
  | false =>
    rw [completeAccess_abandoned hb hr]
    exact Onward.refl _

/-- R167: a completed access has left the bus. -/
theorem completeAccess_bus {s : State} {b : Issued} (hb : s.path.bus = some b) : s.completeAccess.path.bus = none :=
  (completeAccess_onward hb).bus rfl

theorem completeAccess_canHold {s : State} {b : Issued} (hb : s.path.bus = some b) :
    s.completeAccess.canHold = s.canHold := (completeAccess_onward hb).canHold

/-- Settles O31: a completion writes memory by the access it performs, and by nothing else. -/
theorem partWriteReachesMemory : Obligations.PartWriteReachesMemory := by
  intro dt b d s hb hd hheld hwf
  have hshell := completeAccess_shell (s.elapse dt) b hb
  have hperform : b.entry.perform s.mem b.addr = writeWord s.mem b.addr { enables := 15, data := d } := by
    rw [QEntry.perform, hd]
  have hmem : (s.elapse dt).completeAccess.mem = writeWord s.mem b.addr { enables := 15, data := d } :=
    (congrArg Shell.mem hshell).trans hperform
  have hbyte := memRead_writeWord_byte s.mem b.addr { enables := 15, data := d } hwf 0
  have hbus : (s.elapse dt).completeAccess.path.bus = none := completeAccess_bus (s := s.elapse dt) hb
  have houter := congrArg Shell.outer hshell
  refine ⟨_, exec_partAccessComplete_free dt hb hheld, ?_, ?_, fun a ha => ?_, hbus, congrArg Outer.now houter,
    congrArg Outer.pins houter, congrArg Outer.pending houter⟩
  · rw [hmem]
    exact readWord_writeWord_whole s.mem b.addr d hwf
  · rw [hmem]
    exact hbyte.trans (if_pos (show (15 : BitVec 4).getLsbD 0 = true by decide))
  · rw [hmem]
    exact memRead_writeWord_outside s.mem b.addr a _ ha

/-! ### The completion of a notice (R183, R185) -/

/-- R185: the last write of the slot that the completed index names. -/
theorem taken_last {nw : NoticeWriter} {n : Notice} {rest : List Notice} (mask : Word) (h : nw.inRing = n :: rest) :
    nw.taken mask (0x2000 + nw.completed.toNat * 16 + 12) =
      { nw with completed := nw.completed + 1, inRing := rest,
                attention := nw.attention || mask.getLsbD n.kind.category } := by
  unfold NoticeWriter.taken
  rw [if_pos (show 0x2000 + nw.completed.toNat * 16 + 12 = slotOffset nw.completed + 12 from rfl), h]

/-- Settles O32: the report of a NOTICE write changes the notice writer only. -/
theorem noticeCompletes : Obligations.NoticeCompletes := by
  intro dt b d n rest s hb hentry hr hheld hring
  have hdone : (s.elapse dt).completeAccess =
      { (s.elapse dt).accessDone b with
        notices := s.notices.taken (s.copy .attentionMask) (0x2000 + s.notices.completed.toNat * 16 + 12) } := by
    rw [completeAccess_reported (s := s.elapse dt) hb hr, hentry]
    rfl
  rw [taken_last _ hring] at hdone
  refine ⟨_, exec_partAccessComplete_free dt hb hheld, ?_⟩
  rw [hdone]
  exact ⟨rfl, rfl, rfl, rfl, rfl, rfl, rfl, rfl⟩

end Sys2Proof.Machine
end

section
/-! The arbiter (R163, R167, R172): the head of the queue in a gap, the host transaction that starts beside a part access,
and the one that is held until the access completes. -/

namespace Sys2Proof.Machine
open Sys2Proof.Claim

/-! ### A command keeps the vehicle's surroundings (R180) -/

theorem withPosition_base (b : Byte) (s : State) (f : Pos → State × CmdOutcome) (h : ∀ p, (f p).1.base = s.base) :
    (withPosition b s f).1.base = s.base := by
  unfold withPosition
  split
  · exact h _
  · rfl

theorem withTarget_base (b : Byte) (s : State) (f : Option Pos → State × CmdOutcome) (h : ∀ t, (f t).1.base = s.base) :
    (withTarget b s f).1.base = s.base := by
  unfold withTarget
  split
  · exact h _
  · exact withPosition_base b s _ (fun p => h _)

theorem commandAck_base (s : State) (t : Option Pos) (m : Word) : (s.commandAck t m).1.base = s.base := by
  unfold State.commandAck
  split
  · rfl
  · split
    · exact foldl_base _ (fun u p => ackPosition_base u m p) _ s
    · split
      · rfl
      · exact ackPosition_base ..

/-- R180: no command touches the memory path but for the queue, nor the settings, nor state control but for notices. -/
theorem runCommand_base (s : State) (c t p : Byte) : (s.runCommand c t p).1.base = s.base := by
  unfold State.runCommand
  dsimp only
  split
  · exact withPosition_base p s _ (fun q => commandBind_base s q _ t)
  · exact withPosition_base p s _ (fun q => commandUnbind_base s q t)
  · exact withPosition_base p s _ (fun q => commandSwap_base s q _ t)
  · refine withTarget_base p s _ (fun q => ?_)
    cases q
    · exact commandLocateAll_base s t
    · exact commandLocateOne_base s _ t
  · exact commandRecheck_base s t
  · exact withTarget_base p s _ (fun q => commandAck_base s q _)
  · exact forgetCandidates_base s
  · rfl

/-! ### The settings snoop holds no host transaction (R175) -/

theorem held_of_base {s t : State} (h : t.base = s.base) : t.path.held = s.path.held := congrArg Base.held h

theorem held_of_hosting {f : State → State}
    (h : ∀ (s : State) (x : Option BusTxn) (o : Bool) (w : List HostTxn), f (s.hosting x o w) = (f s).hosting x o w)
    (s : State) : (f s).path.held = s.path.held := by
  have hsame := h s s.path.held s.path.owed s.path.waiting
  rw [hosting_self] at hsame
  rw [hsame]
  rfl

theorem notify_held (s : State) (k : NoticeKind) (p : Option Pos) (t : Byte) (i : SensorId) (v : Word) :
    (s.notify k p t i v).path.held = s.path.held := held_of_base (notify_base ..)

theorem takeSetting_held (s : State) (w : SettingWord) (v : Word) : (s.takeSetting w v).path.held = s.path.held :=
  held_of_hosting (f := fun u => u.takeSetting w v) (fun u x o l => takeSetting_hosting u x o l w v) s

theorem completeLoad_held (s : State) : s.completeLoad.path.held = s.path.held :=
  held_of_hosting (f := State.completeLoad) completeLoad_hosting s

theorem takeCommand_held (s : State) (m : Word) (b : Bool) : (s.takeCommand m b).path.held = s.path.held := by
  unfold State.takeCommand
  dsimp only
  split
  · rfl
  · split
    · rfl
    · exact (held_of_base (runCommand_base s _ _ _) : (s.runCommand _ _ _).1.path.held = s.path.held)

theorem appendLimit_held (s : State) (v : Int) : (s.appendLimit v).path.held = s.path.held := by
  unfold State.appendLimit
  split
  · unfold State.deliverLimits
    split
    · rfl
    · exact notify_held ..
  · rfl

theorem takeReadIndex_held (s : State) (i : BitVec 7) : (s.takeReadIndex i).path.held = s.path.held := by
  unfold State.takeReadIndex
  split <;> rfl

theorem refuseSetting_held (s : State) (o : Nat) (v : Word) : (s.refuseSetting o v).path.held = s.path.held :=
  notify_held { s with snoop := { s.snoop with refusedOffset := some o } } ..

theorem takeLive_held (s : State) (w : LiveWord) (m : Word) (b : Bool) : (s.takeLive w m b).path.held = s.path.held := by
  unfold State.takeLive
  split
  · split
    · exact takeReadIndex_held ..
    · exact refuseSetting_held ..
  · rw [takeHold_eq_sweep]
    rfl
  · rfl
  · exact takeCommand_held ..
  · split
    · rfl
    · exact refuseSetting_held ..
  · exact appendLimit_held ..

theorem takeHostSetting_held (s : State) (w : SettingWord) (h : HostWord) :
    (s.takeHostSetting w h).path.held = s.path.held := by
  unfold State.takeHostSetting
  dsimp only
  split
  · exact (completeLoad_held _).trans (takeSetting_held ..)
  · exact takeSetting_held ..

theorem takeWord_held (s : State) (o : Nat) (h : HostWord) : (s.takeWord o h).path.held = s.path.held := by
  unfold State.takeWord
  split
  · rfl
  · split
    · exact takeHostSetting_held ..
    · split
      · exact takeLive_held ..
      · rfl

theorem takeWords_held (ws : List HostWord) (s : State) (o : Nat) : (s.takeWords o ws).path.held = s.path.held := by
  induction ws generalizing s o with
  | nil => rfl
  | cons w ws ih => exact (ih _ _).trans (takeWord_held ..)

theorem refuseAll_held (ws : List HostWord) (p : Path) (a : Nat) : (p.refuseAll a ws).held = p.held := by
  induction ws generalizing p a with
  | nil => rfl
  | cons w ws ih =>
    rw [Path.refuseAll, ih]
    unfold Path.refuse
    split <;> rfl

/-- R172: a host transaction that is carried holds no other. -/
theorem carry_held (s : State) (t : BusTxn) : (s.carry t).path.held = s.path.held := by
  unfold State.carry
  split
  · rfl
  · rfl
  · exact takeWords_held ..
  · exact refuseAll_held ..

/-! ### The head of the queue (R163, R172) -/

section
variable {s : State} {e : QEntry} {rest : List QEntry}

/-- R163, R172: the head on the bus, at the base in force. -/
def State.issuing (s : State) (e : QEntry) (rest : List QEntry) : State :=
  { s with
    path := { s.path with
      queue := rest, overdue := false
      bus := some { entry := e, addr := s.windowBase + e.offset, reported := true } }
    ports := { s.ports with memory := some (e.portAccess (s.windowBase + e.offset)) } }

theorem issueHead_cons (h : s.path.queue = e :: rest) : s.issueHead = s.issuing e rest := by
  rw [State.issueHead, h]
  rfl

theorem headWaited_overdue (h : s.path.queue ≠ []) : s.headWaited.path.overdue = true := by
  simp [State.headWaited, List.isEmpty_eq_false_iff.mpr h]

theorem canHold_iff : s.canHold = true ↔ s.control.refHup = true ∧ s.control.op ≠ .reset := by
  simp [State.canHold]

/-! ### A host transaction that starts (R172) -/

theorem present_begins {t : HostTxn} {x : BusTxn} (hheld : s.path.held = none) (hx : s.resolve t = some x) :
    s.present t = s.begin x := by
  rw [State.present, hheld, hx]
  rfl

/-- R172: held behind the part access on the bus. -/
theorem begin_behind_bus {x : BusTxn} (hcan : s.canHold = true) (hbus : s.path.bus.isSome = true) :
    s.begin x = { s with path := { s.path with held := some x, owed := s.path.overdue } } :=
  if_pos (Bool.and_eq_true_iff.mpr ⟨hcan, hbus⟩)

/-- R172: held behind the overdue head, which is issued. -/
theorem begin_behind_head {x : BusTxn} (hcan : s.canHold = true) (hbus : s.path.bus = none)
    (hover : s.path.overdue = true) (hq : s.path.queue = e :: rest) :
    s.begin x = ({ s with path := { s.path with held := some x } } : State).issuing e rest := by
  have hidle : ¬(s.canHold && s.path.bus.isSome) = true := by
    rw [hbus]
    simp
  have hwaits : (s.canHold && s.path.overdue && !(s.path.queue.isEmpty)) = true := by
    rw [hcan, hover, hq]
    rfl
  rw [State.begin, if_neg hidle, if_pos hwaits]
  exact issueHead_cons (s := { s with path := { s.path with held := some x } }) hq

theorem present_unmapped {t : HostTxn} (hheld : s.path.held = none) (hx : s.resolve t = none) :
    s.present t = { s with ports := { s.ports with hostData := List.replicate t.wordCount 0 } } := by
  rw [State.present, hheld, hx]
  rfl

/-! ### The release of a held host transaction (R172) -/

/-- R172: nothing is owed before the held transaction, and none waits behind it. -/
theorem release_carried {y : BusTxn} (hheld : s.path.held = some y) (howes : s.owesHead = false)
    (hwait : s.path.waiting = []) : s.release = (s.hosting none false []).carry y := by
  rw [State.release, hheld, hwait, howes]
  rfl

theorem release_owed {y : BusTxn} (hheld : s.path.held = some y) (howes : s.owesHead = true)
    (hq : s.path.queue = e :: rest) :
    s.release = { s with path := { s.path with owed := false } }.issuing e rest := by
  rw [State.release, hheld, howes]
  exact issueHead_cons (s := { s with path := { s.path with owed := false } }) hq

end

/-- The completion of an access on the state without its held host transaction. -/
theorem exec_complete_unheld {s : State} {b : Issued} (dt : Nat) (hb : s.path.bus = some b) :
    exec (.partAccessComplete dt) { s with path := { s.path with held := none } } =
      .next ((s.elapse dt).completeAccess.hosting none s.path.owed s.path.waiting) := by
  have hu := exec_partAccessComplete_free (s := { s with path := { s.path with held := none } }) dt hb rfl
  rw [hu]
  exact congrArg Host.Outcome.next (completeAccess_hosting (s.elapse dt) none s.path.owed s.path.waiting)

/-- Settles O30: the part's own work neither reads nor changes the held host transaction (`completeAccess_hosting`), so
that the completion with one held is the completion without it, followed by its release. -/
theorem headIsIssuedInAGap : Obligations.HeadIsIssuedInAGap := by
  refine ⟨?gap, ?overdue, ?starts, ?unmapped, ?carried, ?owed⟩
  case gap =>
    intro dt e rest s hq hbus hheld
    have hexec : exec (.headIssue dt) s = .next ((s.elapse dt).issuing e rest) := by
      change Host.Outcome.next (s.elapse dt).issueInGap = _
      rw [State.issueInGap, if_pos (by rw [elapse_path, hbus, hheld]; exact ⟨rfl, rfl⟩),
        issueHead_cons (s := s.elapse dt) hq]
    exact ⟨_, _, hexec, rfl, rfl, rfl, rfl, rfl, rfl, rfl, rfl⟩
  case overdue => exact fun dt s hq => ⟨_, rfl, headWaited_overdue (s := s.elapse dt) hq, rfl, rfl⟩
  case starts =>
    intro c dt x y s hc hheld hhup hop hx
    have hexec := exec_presented hc
    have hcan : s.canHold = true := canHold_iff.mpr ⟨hhup, hop⟩
    have hx' : (s.elapse dt).resolve x = some y := hx
    refine ⟨fun hbus => ?_, fun e rest hbus hover hq => ?_⟩
    · rw [present_begins (s := s.elapse dt) hheld hx', begin_behind_bus (s := s.elapse dt) hcan hbus] at hexec
      exact ⟨_, hexec, rfl, rfl⟩
    · rw [present_begins (s := s.elapse dt) hheld hx',
        begin_behind_head (s := s.elapse dt) hcan hbus hover hq] at hexec
      exact ⟨_, hexec, rfl, rfl, rfl⟩
  case unmapped =>
    intro c dt x s hc hheld hx
    have hx' : (s.elapse dt).resolve x = none := hx
    rw [exec_presented hc, present_unmapped (s := s.elapse dt) hheld hx']
    rfl
  case carried =>
    intro dt b y s hb hheld hwait howed
    obtain ⟨hheld', howed', hwait'⟩ := completeAccess_host (s.elapse dt)
    have howes : (s.elapse dt).completeAccess.owesHead = false := by
      rw [State.owesHead, howed', elapse_path, howed]
      simp
    have hu := exec_complete_unheld dt hb
    rw [howed, hwait] at hu
    have ht := exec_partAccessComplete dt hb
    rw [release_carried (hheld'.trans hheld) howes (hwait'.trans hwait)] at ht
    refine ⟨_, _, ht, hu, ?_, rfl, fun addr offset en n hy => ?_, fun addr offset ws hy => ?_⟩
    · rw [State.hwaitAsserted, carry_held]
      rfl
    · rw [hy]
      rfl
    · rw [hy]
      rfl
  case owed =>
    intro dt b y e rest s hb hheld hhup hop howed hover hq
    obtain ⟨hheld', howed', hwait'⟩ := completeAccess_host (s.elapse dt)
    have hwaiting : (s.elapse dt).completeAccess.path.waiting = s.path.waiting := hwait'
    have hcan : (s.elapse dt).completeAccess.canHold = true :=
      (completeAccess_canHold (s := s.elapse dt) hb).trans (canHold_iff.mpr ⟨hhup, hop⟩)
    have hbase : (s.elapse dt).completeAccess.windowBase = s.windowBase :=
      congrArg (fun o : Outer => 0x100000 * o.pins.straps.toNat) (completeAccess_outer (s.elapse dt))
    refine ⟨_, _, exec_partAccessComplete dt hb, exec_complete_unheld dt hb, fun hquiet => ?_, fun f more hf hfover => ?_⟩
    · have hpath : (s.elapse dt).completeAccess.path = { s.path with bus := none } := by
        cases hr : b.reported with
        | false =>
          rw [completeAccess_abandoned (s := s.elapse dt) hb hr]
          rfl
        | true =>
          have hnotice : b.entry.origin = .notice := hquiet.resolve_left (by rw [hr]; decide)
          rw [completeAccess_reported (s := s.elapse dt) hb hr, State.report, hnotice]
          rfl
      exact ⟨(congrArg Path.queue hpath).trans hq, (congrArg Path.overdue hpath).trans hover⟩
    · have howes : (s.elapse dt).completeAccess.owesHead = true := by
        have hstill : (s.elapse dt).completeAccess.path.overdue = true := hfover
        have hmore : (s.elapse dt).completeAccess.path.queue = f :: more := hf
        rw [State.owesHead, hcan, howed', elapse_path, howed, hstill, hmore]
        rfl
      rw [release_owed (hheld'.trans hheld) howes hf, ← hbase]
      have hheld'' := hheld'.trans hheld
      refine ⟨?_, ?_⟩
      · exact congrArg Option.isSome hheld''
      · rw [← hheld'', ← hwaiting]
        rfl

end Sys2Proof.Machine
end

section
/-! Deliveries (R27, R34, R36, R38, R39): one that is discarded, one that is counted bad, and a good frame, which merges, makes
an entry, or settles the head of a full list before it makes one. -/

namespace Sys2Proof.Machine
open Sys2Proof.Claim

/-- What no vehicle-side operation changes, read off its base. -/
theorem hostSideSame_of_base {s t : State} (h : t.base = s.base) : hostSideSame s t :=
  ⟨congrArg Base.mem h, congrArg Base.pins h, congrArg Base.ports h, congrArg Base.sweep h, congrArg Base.snoop h,
    congrArg Base.limits h, congrArg Base.op h, congrArg Base.bus h, congrArg Base.held h, congrArg Base.refused h,
    congrArg Base.pending h⟩

/-- R27: the command of a delivery. -/
theorem exec_delivery (dt : Nat) (l : Lane) (bytes : List Byte) (sinceEnd : Nat) (first : Bool) (s : State) :
    exec (.delivery dt l bytes sinceEnd first) s =
      .next ((s.elapse dt).takeDelivery l bytes (s.now + dt - sinceEnd) first) := rfl

section
variable {s : State} {l : Lane} {bytes : List Byte} {ended : Time} {first : Bool} {x : Payload}

theorem takeDelivery_unheard (h : (s.intake.lanes.get l).state.heardOn ended first = false) :
    s.takeDelivery l bytes ended first = s := if_pos h

theorem takeDelivery_bad (h : (s.intake.lanes.get l).state.heardOn ended first = true)
    (hbad : bytes.length < 2 ∨ 17 < bytes.length ∨ decodeFrame bytes.dropLast = none) :
    s.takeDelivery l bytes ended first = s.countBad l := by
  unfold State.takeDelivery
  rw [if_neg (by rw [h]; decide)]
  split
  · rfl
  · next hlen =>
    rw [not_or] at hlen
    rw [(hbad.resolve_left hlen.1).resolve_left hlen.2]

theorem takeDelivery_good (h : (s.intake.lanes.get l).state.heardOn ended first = true) (hmin : 2 ≤ bytes.length)
    (hmax : bytes.length ≤ 17) (hx : decodeFrame bytes.dropLast = some x) :
    s.takeDelivery l bytes ended first = s.takeGoodFrame x l (bytes.getLastD 0) ended := by
  unfold State.takeDelivery
  rw [if_neg (by rw [h]; decide), if_neg (by rw [Config.maxDelivery]; omega), hx]

end

/-- Settles O11: the two ways in which a delivery brings no frame. -/
theorem badDeliveriesAreDiscardedOrCounted : Obligations.BadDeliveriesAreDiscardedOrCounted := by
  refine ⟨fun dt sinceEnd l bytes first s h => ?_, fun dt sinceEnd l bytes first s h hbad => ?_⟩
  · rw [exec_delivery, takeDelivery_unheard (s := s.elapse dt) h]
  · rw [exec_delivery, takeDelivery_bad (s := s.elapse dt) h hbad]
    rfl

/-! ### A good frame is counted (R34, R36) -/

/-- R34, R36: a lane after a good frame. -/
def LaneRec.heardGood (r : LaneRec) : LaneRec :=
  { r with good := min 65535 (r.good + 1), quiet := false, quietCount := if r.quiet then 0 else r.quietCount }

/-- R34, R36: counting a good frame changes the lane, and raises at most a notice. -/
theorem countGood_intake (s : State) (l : Lane) : (s.countGood l).intake =
    { s.intake with lanes := s.intake.lanes.set l (s.intake.lanes.get l).heardGood } := by
  unfold State.countGood
  dsimp only
  split
  · exact notify_intake ..
  · rfl

theorem countGood_tables (s : State) (l : Lane) : (s.countGood l).positions = s.positions ∧
    (s.countGood l).candidates = s.candidates ∧ (s.countGood l).trigger = s.trigger := by
  unfold State.countGood
  dsimp only
  split
  · exact ⟨notify_positions .., notify_candidates .., notify_trigger ..⟩
  · exact ⟨rfl, rfl, rfl⟩

theorem countGood_merged (s : State) (l : Lane) : (s.countGood l).intake.merged = s.intake.merged := by
  rw [countGood_intake]

/-- R34: on a lane that is not quiet nothing but the count changes. -/
theorem countGood_loud {s : State} {l : Lane} (h : (s.intake.lanes.get l).quiet = false) :
    s.countGood l = s.modLane l (fun r => { r with good := min 65535 (r.good + 1) }) := by
  have hlane : (s.intake.lanes.get l).heardGood =
      { s.intake.lanes.get l with good := min 65535 ((s.intake.lanes.get l).good + 1) } := by
    simp [LaneRec.heardGood, h]
  unfold State.countGood
  rw [h]
  exact congrArg (fun r => s.modLane l (fun _ => r)) hlane

theorem countGood_lane (s : State) (l : Lane) :
    (((s.countGood l).intake.lanes.get l).good = min 65535 ((s.intake.lanes.get l).good + 1)) ∧
      ((s.countGood l).intake.lanes.get l).quiet = false := by
  rw [countGood_intake]
  simp [LaneRec.heardGood]

/-- R38: the best level of a lane is that of the row of R38's table. -/
theorem bestLevel_eq (old : Option (BitVec 8)) (v : BitVec 8) :
    bestLevel old v = some (match old with
      | none => v
      | some u => if u.toNat < v.toNat then v else u) := by
  cases old with
  | none => rfl
  | some u => exact (apply_ite some ..).symm

/-- R38: the frame merges into the entry of its key. -/
theorem merge_eq (e : RecentEntry) (x : Payload) (l : Lane) (v : BitVec 8) :
    (if e.keyOf x then e.merge l v else e) =
      if e.payload.id = x.id ∧ e.payload.seq = x.seq then
        { e with heard := e.heard.set l (some (match e.heard.get l with
          | none => v
          | some u => if u.toNat < v.toNat then v else u)) }
      else e := by
  have hkey : e.keyOf x = true ↔ e.payload.id = x.id ∧ e.payload.seq = x.seq := by simp [RecentEntry.keyOf]
  simp only [hkey, RecentEntry.merge, bestLevel_eq]

/-! ### A new entry (R39) -/

theorem settleHead_cons {s : State} {e : RecentEntry} {rest : List RecentEntry} (h : s.intake.recent = e :: rest) :
    s.settleHead = { s with intake := { s.intake with recent := rest } }.route e := by
  rw [State.settleHead, h]

theorem enterFrame_room {s : State} (x : Payload) (l : Lane) (v : BitVec 8) (a : Time) (h : s.intake.recent.length < 24) :
    s.enterFrame x l v a =
      { s with intake := { s.intake with recent := s.intake.recent ++ [newEntry x l v a] } } := by
  have hroom : (if s.intake.recent.length < Config.recentPlaces then s else s.settleHead) = s := if_pos h
  unfold State.enterFrame
  rw [hroom]

/-- R39: with a full list the head is routed before the entry joins. -/
theorem enterFrame_full {s : State} {e : RecentEntry} {rest : List RecentEntry} (x : Payload) (l : Lane) (v : BitVec 8)
    (a : Time) (h : s.intake.recent = e :: rest) (hlen : rest.length = 23) :
    let r := { s with intake := { s.intake with recent := rest } }.route e
    s.enterFrame x l v a = { r with intake := { r.intake with recent := rest ++ [newEntry x l v a] } } := by
  intro r
  have hfull : ¬s.intake.recent.length < Config.recentPlaces := by
    rw [h, List.length_cons, hlen]
    decide
  have hsettled : (if s.intake.recent.length < Config.recentPlaces then s else s.settleHead) = r := by
    rw [if_neg hfull, settleHead_cons h]
  have hrest : r.intake.recent = rest := congrArg Intake.recent (route_intake ..)
  unfold State.enterFrame
  rw [hsettled]
  dsimp only
  rw [hrest]

section
variable {s : State} {x : Payload} (l : Lane) (v : BitVec 8) (a : Time)

theorem takeGoodFrame_merges (h : s.intake.recent.any (fun e => e.keyOf x) = true) :
    s.takeGoodFrame x l v a = (s.countGood l).mergeFrame x l v := by
  unfold State.takeGoodFrame
  dsimp only
  rw [countGood_recent]
  exact if_pos h

theorem takeGoodFrame_enters (h : s.intake.recent.any (fun e => e.keyOf x) = false) :
    s.takeGoodFrame x l v a = (s.countGood l).enterFrame x l v a := by
  unfold State.takeGoodFrame
  dsimp only
  rw [countGood_recent]
  exact if_neg (by rw [h]; decide)

end

/-- Settles O12: the three rows of R38 and R39 after the count of the lane. -/
theorem goodFramesMergeOrEnter : Obligations.GoodFramesMergeOrEnter := by
  refine ⟨?merge, ?enter, ?full⟩
  case merge =>
    intro dt sinceEnd l bytes first x s h hmin hmax hx hkey
    obtain ⟨hpos, hcand, htrig⟩ := countGood_tables (s.elapse dt) l
    obtain ⟨hgood, hquiet⟩ := countGood_lane (s.elapse dt) l
    have hexec := exec_delivery dt l bytes sinceEnd first s
    rw [takeDelivery_good (s := s.elapse dt) h hmin hmax hx, takeGoodFrame_merges (s := s.elapse dt) l _ _ hkey] at hexec
    refine ⟨_, hexec, ?_, hgood, hquiet, ?_, hpos, hcand, htrig, hostSideSame_of_base (s := s.elapse dt) (by simp)⟩
    · exact congrArg (fun n => min 65535 (n + 1)) (countGood_merged (s.elapse dt) l)
    · refine (congrArg (List.map _) (countGood_recent (s.elapse dt) l)).trans ?_
      exact List.map_congr_left (fun e _ => merge_eq e x l _)
  case enter =>
    intro dt sinceEnd l bytes first x s h hmin hmax hx hkey hlen
    obtain ⟨hpos, hcand, htrig⟩ := countGood_tables (s.elapse dt) l
    obtain ⟨hgood, hquiet⟩ := countGood_lane (s.elapse dt) l
    have hrecent := countGood_recent (s.elapse dt) l
    have hexec := exec_delivery dt l bytes sinceEnd first s
    rw [takeDelivery_good (s := s.elapse dt) h hmin hmax hx, takeGoodFrame_enters (s := s.elapse dt) l _ _ hkey,
      enterFrame_room _ _ _ _ (by rw [hrecent]; exact hlen)] at hexec
    refine ⟨_, hexec, countGood_merged (s.elapse dt) l, hgood, hquiet, congrArg (· ++ _) hrecent, hpos, hcand, htrig, ?_⟩
    exact hostSideSame_of_base (s := s.elapse dt) (countGood_base (s.elapse dt) l)
  case full =>
    intro dt sinceEnd l bytes first x e rest s h hmin hmax hx hkey hrecent hlen hquiet
    have hexec := exec_delivery dt l bytes sinceEnd first s
    rw [takeDelivery_good (s := s.elapse dt) h hmin hmax hx, takeGoodFrame_enters (s := s.elapse dt) l _ _ hkey,
      countGood_loud (s := s.elapse dt) hquiet] at hexec
    exact hexec.trans (congrArg Host.Outcome.next (enterFrame_full x l (bytes.getLastD 0) _ hrecent hlen))

end Sys2Proof.Machine
end

section
/-! The numbers of R102 and R146, the scheduler of fires (R63 to R67) and the start of a publication (R134, R135). -/

namespace Sys2Proof.Machine
open Sys2Proof.Claim

/-! ### Cold pressure (R102) -/

/-- Rounding halves up brackets the quotient. -/
theorem roundDiv_bounds (num den : Nat) (h : 0 < den) :
    2 * den * roundDiv num den ≤ 2 * num + den ∧ 2 * num + den < 2 * den * (roundDiv num den + 1) :=
  ⟨Nat.mul_div_le _ _, Nat.lt_mul_div_succ _ (by omega)⟩

/-! ### Leak rate (R146) -/

theorem tdiv_of_le {old new : Nat} (n : Nat) (h : new ≤ old) :
    (600 * ((old : Int) - new)).tdiv n = (((old - new) * 600 / n : Nat) : Int) := by
  rw [← Int.ofNat_sub h, Nat.mul_comm]
  exact Int.ofNat_tdiv ..

theorem tdiv_of_ge {old new : Nat} (n : Nat) (h : old ≤ new) :
    (600 * ((old : Int) - new)).tdiv n = -(((new - old) * 600 / n : Nat) : Int) := by
  rw [← tdiv_of_le n h, ← Int.neg_tdiv]
  congr 1
  ring

/-- Settles O15: the rounded quotient is bracketed by `roundDiv_bounds`, and truncated division is that of its magnitude. -/
theorem coldPressureAndLeakRate : Obligations.ColdPressureAndLeakRate := by
  refine ⟨?edges, ?quotient, ?rate⟩
  case edges => exact fun t patm => ⟨rfl, rfl⟩
  case quotient =>
    intro code t patm hzero hover hlo hhi hpmin hpmax
    obtain ⟨d, hd⟩ : ∃ d : Nat, t + 273 = d := ⟨(t + 273).toNat, by omega⟩
    obtain ⟨hle, hlt⟩ := roundDiv_bounds (586 * code.toNat) d (by omega)
    have hcold : coldPressure code t patm = some (min 2047 (roundDiv (586 * code.toNat) d - patm)) := by
      rw [coldPressure, if_neg hzero, if_neg hover, compensated, hd, Int.toNat_natCast]
    refine ⟨roundDiv (586 * code.toNat) d, ?_, ?_, ?_⟩
    · rw [hd]
      exact_mod_cast (by omega : 2 * d * roundDiv (586 * code.toNat) d ≤ 2 * (2 * code.toNat * 293) + d)
    · rw [hd]
      exact_mod_cast (by omega : 2 * (2 * code.toNat * 293) + d < 2 * d * (roundDiv (586 * code.toNat) d + 1))
    · rw [hcold]
      generalize roundDiv (586 * code.toNat) d = n
      have hclamp : ((min 2047 (n - patm) : Nat) : Int) = max 0 (min 2047 ((n : Int) - patm)) := by omega
      exact congrArg some hclamp
  case rate =>
    intro old new elapsed period _ _
    have hrate : leakRate old new elapsed period =
        max (-32768) (min 32767 ((600 * ((old : Int) - new)).tdiv ((elapsed * period : Nat) : Int))) := by
      rw [leakRate, Int.natCast_mul]
    refine ⟨fun h => ?_, fun h => ?_⟩
    · rw [hrate, tdiv_of_le _ h]
      generalize (old - new) * 600 / (elapsed * period) = n
      exact max_eq_right (by omega)
    · rw [hrate, tdiv_of_ge _ h]
      generalize (new - old) * 600 / (elapsed * period) = n
      rw [min_eq_right (by omega)]

/-! ### Eligibility (R63) -/

/-- R63: the spacing from the latest start, if there is one. -/
theorem spacedFrom_iff {now span : Nat} {t : Option Time} :
    spacedFrom now span t = true ↔ ∀ x, t = some x → x + span ≤ now := by
  cases t <;> simp [spacedFrom]

theorem windowOpen_iff {log : List Time} {now : Time} :
    windowOpen log now = true ↔ ∀ x, 5 ≤ log.length → log.head? = some x → x + 2000 ≤ now := by
  have hshort : decide (log.length < Config.logPlaces) = true ↔ log.length < 5 := decide_eq_true_iff
  rw [windowOpen, Bool.or_eq_true, spacedFrom_iff, hshort]
  refine ⟨fun h x hlen => h.resolve_left (by omega) x, fun h => ?_⟩
  by_cases hlen : log.length < 5
  · exact Or.inl hlen
  · exact Or.inr (fun x => h x (by omega))

/-- R66: the fifteen codes that the allocator tries are distinct. -/
theorem codesAfter_nodup (last : BitVec 4) : (codesAfter last).Nodup := by revert last; decide

/-- R66: with at most four records one of the fifteen codes is free. -/
theorem nextCode_exists {t : Trigger} (h : t.records.length ≤ 4) : ∃ c, t.nextCode = some c := by
  rw [← Option.isSome_iff_exists, Trigger.nextCode, List.find?_isSome]
  by_contra hnone
  have hsub : codesAfter t.lastCode ⊆ t.records.map FireRec.code := by
    intro c hc
    by_contra hfree
    refine hnone ⟨c, hc, ?_⟩
    rw [Bool.not_eq_true', List.any_eq_false]
    exact fun r hr hcode => hfree (List.mem_map.mpr ⟨r, hr, beq_iff_eq.mp hcode⟩)
  have hlen := ((codesAfter_nodup t.lastCode).subperm hsub).length_le
  have hfifteen : (codesAfter t.lastCode).length = 15 := by simp [codesAfter]
  rw [hfifteen, List.length_map] at hlen
  omega

theorem exec_fireStart (dt : Nat) (s : State) : exec (.fireStart dt) s = .next (s.elapse dt).schedule := rfl

/-- Settles O19: eligibility is the conjunction of R63; the allocator's code is `nextCode_spec` and `nextCode_exists`. -/
theorem firesKeepTheirConditions : Obligations.FiresKeepTheirConditions := by
  refine ⟨fun r s h => ?_, fun dt s h => ?_, fun t => ⟨fun c hc => nextCode_spec hc, nextCode_exists⟩⟩
  · simp only [State.eligible, Bool.and_eq_true, beq_iff_eq, Bool.not_eq_true', List.any_eq_false, decide_eq_true_iff,
      spacedFrom_iff, windowOpen_iff] at h
    obtain ⟨⟨⟨⟨⟨⟨⟨⟨hrun, havail⟩, hidle⟩, hrec⟩, hlen⟩, hany⟩, haxle⟩, hlog⟩, hspeed⟩ := h
    exact ⟨hrun, hspeed, hlen, havail, hidle, hrec, hany, haxle, hlog⟩
  · have hnone : (s.elapse dt).trigger.queue.find? (s.elapse dt).eligible = none :=
      List.find?_eq_none.mpr fun r hr => by simp [h r hr]
    rw [exec_fireStart, State.schedule, hnone]

/-! ### The start of a fire (R15, R64 to R67) -/

theorem logStart_getLast? (log : List Time) (now : Time) : (logStart log now).getLast? = some now := by
  unfold logStart
  split <;> exact List.getLast?_concat

/-- R15: what the first attempt of a fire does to a position. -/
theorem posAt_locating (s : State) (c : Coil) (p : Pos) :
    (s.locating c).posAt p = if (s.posAt p).state = .unlearned ∧ p ∈ servedBy s.layout c
      then { s.posAt p with state := .locating } else s.posAt p := by
  rw [State.locating, posAt_mapPos]
  simp only [List.contains_iff_mem]

/-- R65: the state after the start of a fire, before R15. -/
def State.fired (s : State) (r : Request) (code : BitVec 4) : State :=
  { s with trigger := s.trigger.started r code (s.setting .responseWindow) s.now }

theorem schedule_fires {s : State} {r : Request} {code : BitVec 4} (hr : s.trigger.queue.find? s.eligible = some r)
    (hc : s.trigger.nextCode = some code) :
    s.schedule = if r.attempts = 0 then (s.fired r code).locating r.coil else s.fired r code := by
  rw [State.schedule, hr]
  dsimp only
  rw [State.startFire, hc]
  rfl

/-- The start of a fire changes the positions by R15 only, and the trigger unit by R65. -/
theorem schedule_trigger {s : State} {r : Request} {code : BitVec 4} (hr : s.trigger.queue.find? s.eligible = some r)
    (hc : s.trigger.nextCode = some code) :
    s.schedule.trigger = s.trigger.started r code (s.setting .responseWindow) s.now ∧
      s.schedule.candidates = s.candidates ∧ s.schedule.path = s.path := by
  rw [schedule_fires hr hc]
  split <;> exact ⟨rfl, rfl, rfl⟩

theorem posAt_schedule {s : State} {r : Request} {code : BitVec 4} (hr : s.trigger.queue.find? s.eligible = some r)
    (hc : s.trigger.nextCode = some code) (p : Pos) :
    s.schedule.posAt p = if r.attempts = 0 ∧ p ∈ servedBy s.layout r.coil ∧ (s.posAt p).state = .unlearned
      then { s.posAt p with state := .locating } else s.posAt p := by
  rw [schedule_fires hr hc]
  by_cases h : r.attempts = 0
  · rw [if_pos h, posAt_locating]
    simp only [h, true_and, and_comm]
    rfl
  · rw [if_neg h, if_neg (fun hall => h hall.1)]
    rfl

/-- Settles O18: the trigger unit after the start is `Trigger.started`, the positions are those of R15. -/
theorem fireStartOpensARecord : Obligations.FireStartOpensARecord := by
  intro dt r code s hr hc
  obtain ⟨htrig, hcand, hpath⟩ := schedule_trigger (s := s.elapse dt) hr hc
  have hpos := posAt_schedule (s := s.elapse dt) hr hc
  refine ⟨_, exec_fireStart dt s, ?_, ?_, ?_, fun c hne => ?_, ?_, ?_, ?_, fun p => ?_, fun p => ?_, hcand, hpath,
    hostSideSame_of_base (s := s.elapse dt) (schedule_base _)⟩
  · rw [htrig]
    rfl
  · rw [htrig]
    rfl
  · rw [htrig]
    exact Vector.getElem_set_self r.coil.isLt
  · rw [htrig]
    exact Vector.getElem_set_ne r.coil.isLt c.isLt (fun h => hne (Fin.ext h.symm))
  · rw [htrig]
    exact Vector.getElem_set_self r.coil.isLt
  · rw [htrig]
    exact logStart_getLast? _ _
  · rw [htrig]
    rfl
  · rw [hpos, apply_ite PosRec.state]
    rfl
  · rw [hpos]
    split <;> rfl

/-! ### The sweep timer (R133 to R135) -/

/-- R134: the timer reloads the period and the count rises. -/
def State.swept (s : State) : State :=
  { s with sweep := { s.sweep with timer := some (s.now + 1000 * s.setting .sweepPeriod), count := s.sweep.count + 1 } }

theorem exec_sweepExpiry_due {s : State} {dt : Nat} {e : Time} (ht : s.sweep.timer = some e) (he : e ≤ s.now + dt) :
    exec (.sweepExpiry dt) s = .next (s.elapse dt).sweepExpires := by
  change execSweepExpiry dt s = _
  rw [execSweepExpiry]
  simp only [elapse_sweep, ht]
  exact if_pos (due_some he)

theorem sweepExpires_busy {s : State} {q : Publication} (h : s.sweep.publication = some q) :
    s.sweepExpires = { s.swept with sweep := { s.swept.sweep with skipped := min 65535 (s.sweep.skipped + 1) } } := by
  unfold State.sweepExpires State.swept
  dsimp only
  rw [h]
  rfl

theorem sweepExpires_starts {s : State} (h : s.sweep.publication = none) : s.sweepExpires = s.swept.startPublication := by
  unfold State.sweepExpires State.swept
  dsimp only
  rw [h]

/-- Settles O26: a publication starts on the state whose timer and count have moved, with its candidates aged. -/
theorem sweepTimerExpires : Obligations.SweepTimerExpires := by
  intro dt e s ht he
  have hexec := exec_sweepExpiry_due ht he
  refine ⟨fun q hq => ?_, fun hq => ?_⟩
  · rw [hexec, sweepExpires_busy (s := s.elapse dt) hq]
    rfl
  · rw [sweepExpires_starts (s := s.elapse dt) hq] at hexec
    refine ⟨_, _, hexec, rfl, rfl, rfl, rfl, rfl, rfl, rfl, rfl, rfl, rfl, rfl, rfl, rfl, rfl, rfl, fun c => ?_, rfl,
      rfl, rfl, rfl, rfl⟩
    refine List.mem_filter.trans (and_congr_right fun _ => ?_)
    rw [Bool.or_eq_true, decide_eq_true_iff]
    rfl

end Sys2Proof.Machine
end

section
/-! The commands that change no binding: LOCATE and RECHECK (R84), ACK (R125), and those that are not executed (R180). First
the laws of the trigger queue (R61, R62) and the way of a command from the bus to its owner and its result. -/

namespace Sys2Proof.Machine
open Sys2Proof.Claim

/-! ### Requests offered in order (R61, R62) -/

theorem merge_coil (x r : Request) : (x.merge r).coil = x.coil := by
  unfold Request.merge
  split
  · rfl
  · split <;> rfl

/-- R62: a request for a coil that has none queued joins the tail. -/
theorem takeRequest_new {q : List Request} {r : Request} (h : ∀ x ∈ q, x.coil ≠ r.coil) : takeRequest q r = q ++ [r] := by
  refine if_neg fun hany => ?_
  obtain ⟨x, hx, hc⟩ := List.any_eq_true.mp hany
  exact h x hx (beq_iff_eq.mp hc)

/-- R61: requests for available coils offered in RUN are taken by the queue one after the other. -/
theorem offerEach_run {s : State} {cs : List Coil} (u : Purpose) (t : Byte) (hrun : s.control.op = .run)
    (havail : ∀ c ∈ cs, s.available c = true) :
    s.offerEach cs u t = { s with trigger := { s.trigger with
      queue := cs.foldl (fun q c => takeRequest q { coil := c, purpose := u, attempts := 0, tag := t })
        s.trigger.queue } } := by
  unfold State.offerEach
  induction cs generalizing s with
  | nil => rfl
  | cons c cs ih =>
    have hoffer : s.offer { coil := c, purpose := u, attempts := 0, tag := t } = { s with trigger := { s.trigger with
        queue := takeRequest s.trigger.queue { coil := c, purpose := u, attempts := 0, tag := t } } } := by
      unfold State.offer
      rw [if_pos ⟨hrun, havail c (List.mem_cons_self)⟩]
    rw [List.foldl_cons, List.foldl_cons, hoffer]
    exact ih hrun (fun x hx => havail x (List.mem_cons_of_mem c hx))

/-! ### COMMAND requests (R62, R84) -/

/-- A COMMAND request with the tag is queued for the coil. -/
def commanded (q : List Request) (c : Coil) (tag : Byte) : Prop :=
  ∃ r ∈ q, r.coil = c ∧ r.purpose = .command ∧ r.tag = tag

/-- R62: COMMAND ranks highest, and of two the later tag stands. -/
theorem merge_command (x : Request) (c : Coil) (tag : Byte) :
    (x.merge { coil := c, purpose := .command, attempts := 0, tag := tag }).purpose = .command ∧
      (x.merge { coil := c, purpose := .command, attempts := 0, tag := tag }).tag = tag := by
  unfold Request.merge
  cases hx : x.purpose <;> simp [Purpose.rank]

theorem commanded_takeRequest_same (q : List Request) (c : Coil) (tag : Byte) :
    commanded (takeRequest q { coil := c, purpose := .command, attempts := 0, tag := tag }) c tag := by
  by_cases hnew : ∀ x ∈ q, x.coil ≠ c
  · rw [takeRequest_new hnew]
    exact ⟨_, List.mem_append_right _ (List.mem_singleton_self _), rfl, rfl, rfl⟩
  · push Not at hnew
    obtain ⟨x, hx, hc⟩ := hnew
    have hany : (q.any fun y => y.coil == c) = true := List.any_eq_true.mpr ⟨x, hx, beq_iff_eq.mpr hc⟩
    obtain ⟨hpurpose, htag⟩ := merge_command x c tag
    refine ⟨_, ?_, (merge_coil x _).trans hc, hpurpose, htag⟩
    rw [takeRequest, if_pos hany]
    exact List.mem_map.mpr ⟨x, hx, if_pos hc⟩

theorem commanded_takeRequest {q : List Request} {c : Coil} {tag : Byte} (d : Coil) (h : commanded q c tag) :
    commanded (takeRequest q { coil := d, purpose := .command, attempts := 0, tag := tag }) c tag := by
  obtain ⟨r, hr, hc, hp, ht⟩ := h
  by_cases hd : r.coil = d
  · rw [← hc, hd]
    exact commanded_takeRequest_same q d tag
  · refine ⟨r, ?_, hc, hp, ht⟩
    unfold takeRequest
    split
    · exact List.mem_map.mpr ⟨r, hr, if_neg hd⟩
    · exact List.mem_append_left _ hr

/-- R84: after COMMAND requests for a list of coils each of them has one with the tag. -/
theorem commanded_foldl (cs : List Coil) (q : List Request) (c : Coil) (tag : Byte) (h : c ∈ cs ∨ commanded q c tag) :
    commanded (cs.foldl (fun q c => takeRequest q { coil := c, purpose := .command, attempts := 0, tag := tag }) q) c tag := by
  induction cs generalizing q with
  | nil => exact h.resolve_left List.not_mem_nil
  | cons d cs ih =>
    refine ih _ ?_
    obtain hmem | hq := h
    · obtain rfl | hmem := List.mem_cons.mp hmem
      · exact Or.inr (commanded_takeRequest_same q c tag)
      · exact Or.inl hmem
    · exact Or.inr (commanded_takeRequest d hq)

/-! ### From the bus to the owner and the result (R180, R181) -/

/-- R180: the state that a command's owner finds. -/
def State.asked (s : State) (dt : Nat) (w : Word) : State := (s.elapse dt).commandWritten w

@[simp] theorem asked_now (s : State) (dt : Nat) (w : Word) : (s.asked dt w).now = s.now + dt := rfl
@[simp] theorem asked_positions (s : State) (dt : Nat) (w : Word) : (s.asked dt w).positions = s.positions := rfl
@[simp] theorem asked_candidates (s : State) (dt : Nat) (w : Word) : (s.asked dt w).candidates = s.candidates := rfl
@[simp] theorem asked_trigger (s : State) (dt : Nat) (w : Word) : (s.asked dt w).trigger = s.trigger := rfl
@[simp] theorem asked_eval (s : State) (dt : Nat) (w : Word) : (s.asked dt w).eval = s.eval := rfl
@[simp] theorem asked_sweep (s : State) (dt : Nat) (w : Word) : (s.asked dt w).sweep = s.sweep := rfl
@[simp] theorem asked_notices (s : State) (dt : Nat) (w : Word) : (s.asked dt w).notices = s.notices := rfl
@[simp] theorem asked_control (s : State) (dt : Nat) (w : Word) : (s.asked dt w).control = s.control := rfl
@[simp] theorem asked_settings (s : State) (dt : Nat) (w : Word) :
    (s.asked dt w).snoop.settings = s.snoop.settings := rfl
@[simp] theorem asked_pending (s : State) (dt : Nat) (w : Word) : (s.asked dt w).pending = s.pending := rfl
@[simp] theorem asked_posAt (s : State) (dt : Nat) (w : Word) (p : Pos) : (s.asked dt w).posAt p = s.posAt p := rfl
@[simp] theorem asked_layout (s : State) (dt : Nat) (w : Word) : (s.asked dt w).layout = s.layout := rfl
@[simp] theorem asked_argument (s : State) (dt : Nat) (w : Word) :
    (s.asked dt w).liveCopy .argument = s.liveCopy .argument := by
  rw [liveCopy_eq, liveCopy_eq]
  exact Vector.getElem_set_ne (by decide) (by decide) (by decide)

/-- R180, R181: a command taken in RUN: what its owner makes of the state that it finds, with the owner's outcome as the
result. -/
theorem command_taken {c : Instr} {s : State} {dt code : Nat} {tag pos upper : Byte} {o : State × CmdOutcome}
    (h : takesCommands s) (hc : exec c s = .next ((s.elapse dt).writesCommand code tag pos upper 15))
    (ho : (s.asked dt (commandWord code tag pos upper)).runCommand (BitVec.ofNat 8 code) tag pos = o) :
    exec c s = .next (o.1.writeResult (BitVec.ofNat 8 code) tag o.2) ∧
      resultIs s (o.1.writeResult (BitVec.ofNat 8 code) tag o.2) (BitVec.ofNat 8 code) tag o.2 ∧
      o.1.base = (s.asked dt (commandWord code tag pos upper)).base := by
  obtain ⟨hrun, hheld, hbus, hover⟩ := h
  have hwrite := writesCommand_run (s.elapse dt) code tag pos upper hrun hheld hbus hover
  have hbase := runCommand_base (s.asked dt (commandWord code tag pos upper)) (BitVec.ofNat 8 code) tag pos
  rw [ho] at hbase
  refine ⟨?_, resultIs_writeResult _ tag _ (congrArg (fun b : Base => b.snoop.result) hbase), hbase⟩
  rw [hc, hwrite, ← ho]
  rfl

theorem asked_pending_of_base {s t : State} {dt : Nat} {w : Word} (h : t.base = (s.asked dt w).base) :
    t.pending = s.pending := congrArg Base.pending h

theorem asked_sweep_of_base {s t : State} {dt : Nat} {w : Word} (h : t.base = (s.asked dt w).base) :
    t.sweep = s.sweep := congrArg Base.sweep h

theorem asked_settings_of_base {s t : State} {dt : Nat} {w : Word} (h : t.base = (s.asked dt w).base) :
    t.snoop.settings = s.snoop.settings := congrArg (fun b : Base => b.snoop.settings) h

/-! ### The byte that names a position (R181) -/

theorem withPosition_index (p : Pos) (s : State) (f : Pos → State × CmdOutcome) :
    withPosition (BitVec.ofNat 8 p.val) s f = f p := by
  have hbyte : (BitVec.ofNat 8 p.val).toNat = p.val := by
    rw [BitVec.toNat_ofNat]
    exact Nat.mod_eq_of_lt (by omega)
  have hpos : posOfByte (BitVec.ofNat 8 p.val).toNat = some p := by
    rw [hbyte]
    exact dif_pos p.isLt
  rw [withPosition, hpos]

theorem withPosition_beyond {b : Byte} (s : State) (f : Pos → State × CmdOutcome) (h : 25 < b.toNat) :
    withPosition b s f = (s, .refusedRange) := by
  have hpos : posOfByte b.toNat = none := dif_neg (by omega)
  rw [withPosition, hpos]

theorem withTarget_index (p : Pos) (s : State) (f : Option Pos → State × CmdOutcome) :
    withTarget (BitVec.ofNat 8 p.val) s f = f (some p) := by
  have hbyte : BitVec.ofNat 8 p.val ≠ 0xFF := by revert p; decide
  rw [withTarget, if_neg hbyte, withPosition_index]

/-! ### The acknowledgement of alert records (R125) -/

/-- R125: an alert record after an ACK that names it. -/
def AlertRec.acknowledged (r : AlertRec) : AlertRec := if r.standing = true then { r with acked := true } else r

theorem alertAt_ackOne (s : State) (p q : Pos) (k j : AlertKind) :
    (s.ackOne p k).alertAt q j = if q = p ∧ j = k then (s.alertAt p k).acknowledged else s.alertAt q j := by
  unfold State.ackOne AlertRec.acknowledged
  dsimp only
  split
  · exact alertAt_setAlert ..
  · split
    · next h => rw [h.1, h.2]
    · rfl

theorem acknowledged_twice (r : AlertRec) : r.acknowledged.acknowledged = r.acknowledged := by
  unfold AlertRec.acknowledged
  by_cases h : r.standing = true <;> simp_all [AlertRec.standing]

/-- R125: an ACK of the kinds of a mask, kind by kind. -/
theorem alertAt_foldl_ack (mask : Word) (l : List AlertKind) (s : State) (p q : Pos) (j : AlertKind) :
    (l.foldl (fun t k => if mask.getLsbD k.num then t.ackOne p k else t) s).alertAt q j =
      if q = p ∧ j ∈ l ∧ mask.getLsbD j.num = true then (s.alertAt p j).acknowledged else s.alertAt q j := by
  induction l generalizing s with
  | nil => simp
  | cons k ks ih =>
    rw [List.foldl_cons, ih]
    by_cases hm : mask.getLsbD k.num = true
    · simp only [hm, if_true, alertAt_ackOne]
      by_cases hq : q = p
      · subst hq
        by_cases hj : j = k
        · subst hj
          by_cases hin : j ∈ ks <;> simp [hm, hin, acknowledged_twice]
        · simp [hj]
      · simp [hq]
    · have hj : j = k → ¬ mask.getLsbD j.num = true := fun h => h ▸ hm
      by_cases hjk : j = k
      · simp [hm, hj hjk]
      · simp [hm, hjk]

theorem alertAt_ackPosition (s : State) (mask : Word) (p q : Pos) (j : AlertKind) :
    (s.ackPosition mask p).alertAt q j =
      if q = p ∧ mask.getLsbD j.num = true then (s.alertAt p j).acknowledged else s.alertAt q j := by
  have hall : j ∈ alertKinds := by cases j <;> decide
  rw [State.ackPosition, alertAt_foldl_ack]
  simp [hall]

theorem posAt_ackPosition_other (s : State) (mask : Word) {p q : Pos} (h : q ≠ p) :
    (s.ackPosition mask p).posAt q = s.posAt q := by
  refine foldl_view (fun u : State => u.posAt q) _ (fun t k => ?_) _ s
  unfold State.ackOne
  dsimp only
  split
  · split
    · rw [posAt_setAlert, if_neg h]
    · rfl
  · rfl

theorem ackPosition_notices (s : State) (mask : Word) (p : Pos) : (s.ackPosition mask p).notices = s.notices := by
  refine foldl_view State.notices _ (fun t k => ?_) _ s
  unfold State.ackOne
  dsimp only
  split
  · split <;> rfl
  · rfl

/-- R125: an ACK of FF, position by position. -/
def State.ackAll (s : State) (mask : Word) (l : List Pos) : State := l.foldl (State.ackPosition · mask) s

theorem alertAt_ackAll (mask : Word) (l : List Pos) (s : State) (q : Pos) (j : AlertKind) :
    (s.ackAll mask l).alertAt q j =
      if q ∈ l ∧ mask.getLsbD j.num = true then (s.alertAt q j).acknowledged else s.alertAt q j := by
  unfold State.ackAll
  induction l generalizing s with
  | nil => simp
  | cons p ps ih =>
    rw [List.foldl_cons, ih, alertAt_ackPosition]
    by_cases hm : mask.getLsbD j.num = true
    · by_cases hq : q = p
      · subst hq
        by_cases hin : q ∈ ps <;> simp [hm, hin, acknowledged_twice]
      · simp [hq]
    · simp [hm]

theorem ackAll_tables (s : State) (mask : Word) (l : List Pos) : (s.ackAll mask l).tables = s.tables :=
  foldl_view State.tables _ (fun t p => ackPosition_tables t mask p) l s

theorem ackAll_notices (s : State) (mask : Word) (l : List Pos) : (s.ackAll mask l).notices = s.notices :=
  foldl_view State.notices _ (fun t p => ackPosition_notices t mask p) l s

/-- The bindings are read off the records but for their alerts. -/
theorem sameBindings_of_tables {s t : State} (h : t.tables = s.tables) : sameBindings s t := fun p =>
  have hcore := core_of_tables h p
  ⟨(congrArg PosRec.state hcore :), (congrArg PosRec.id hcore :), (congrArg PosRec.epoch hcore :)⟩

/-! ### ACK (R125) -/

section
variable {s : State} {mask : Word}

theorem commandAck_all_positions (h : mask.toNat < 128) :
    s.commandAck none mask = (s.ackAll mask positionsInOrder, .done) := if_neg (by omega)

theorem commandAck_one {p : Pos} (h : mask.toNat < 128) (hp : (s.posAt p).state ≠ .vacant) :
    s.commandAck (some p) mask = (s.ackPosition mask p, .done) :=
  (if_neg (by omega)).trans (if_neg hp)

theorem commandAck_vacant {p : Pos} (h : mask.toNat < 128) (hp : (s.posAt p).state = .vacant) :
    s.commandAck (some p) mask = (s, .refusedState) := (if_neg (by omega)).trans (if_pos hp)

theorem commandAck_range (t : Option Pos) (h : 128 ≤ mask.toNat) : s.commandAck t mask = (s, .refusedRange) := if_pos h

end

/-- R125: a record that an ACK of the mask names, as the obligation writes it. -/
theorem acknowledged_eq (mask : Word) (r : AlertRec) (k : AlertKind) :
    (if mask.getLsbD k.num = true then r.acknowledged else r) =
      if mask.getLsbD k.num = true ∧ r.standing = true then { r with acked := true } else r := by
  unfold AlertRec.acknowledged
  by_cases h : mask.getLsbD k.num = true <;> simp [h]

/-- Settles O52: the outcomes are the rows of `commandAck`, the records those of `alertAt_ackPosition`. -/
theorem ackAcknowledges : Obligations.AckAcknowledges := by
  refine ⟨?one, ?all, ?range⟩
  case one =>
    intro dt tag upper p s h hmask
    have hrun (w : Word) : (s.asked dt w).runCommand (BitVec.ofNat 8 6) tag (BitVec.ofNat 8 p.val) =
        (s.asked dt w).commandAck (some p) (s.liveCopy .argument) := by
      have howner : (s.asked dt w).runCommand (BitVec.ofNat 8 6) tag (BitVec.ofNat 8 p.val) =
          withTarget (BitVec.ofNat 8 p.val) (s.asked dt w)
            (fun t => (s.asked dt w).commandAck t ((s.asked dt w).liveCopy .argument)) := rfl
      rw [howner, withTarget_index, asked_argument]
    refine ⟨fun hp => ?_, fun hp => ?_⟩
    · obtain ⟨hexec, hres, hbase⟩ := command_taken (c := .ack dt tag (BitVec.ofNat 8 p.val) upper 15) (code := 6)
        (upper := upper) h rfl ((hrun _).trans (commandAck_one hmask hp))
      have htables := ackPosition_tables (s.asked dt (commandWord 6 tag (BitVec.ofNat 8 p.val) upper))
        (s.liveCopy .argument) p
      refine ⟨_, hexec, hres, fun k => ?_, fun q hq => posAt_ackPosition_other _ _ hq, sameBindings_of_tables htables,
        congrArg Tables.candidates htables, congrArg Tables.trigger htables, ackPosition_notices _ _ _,
        (asked_pending_of_base hbase :)⟩
      rw [← acknowledged_eq]
      exact (alertAt_ackPosition _ _ _ _ _).trans (by simp only [true_and]; rfl)
    · obtain ⟨hexec, hres, -⟩ := command_taken (c := .ack dt tag (BitVec.ofNat 8 p.val) upper 15) (code := 6)
        (upper := upper) h rfl ((hrun _).trans (commandAck_vacant hmask hp))
      exact ⟨_, hexec, hres, rfl, rfl⟩
  case all =>
    intro dt tag upper s h hmask
    have hrun (w : Word) : (s.asked dt w).runCommand (BitVec.ofNat 8 6) tag 0xFF =
        (s.asked dt w).commandAck none (s.liveCopy .argument) := by
      rw [← asked_argument s dt w]
      rfl
    obtain ⟨hexec, hres, hbase⟩ := command_taken (c := .ack dt tag 0xFF upper 15) (code := 6) (upper := upper) h rfl
      ((hrun _).trans (commandAck_all_positions hmask))
    have htables := ackAll_tables (s.asked dt (commandWord 6 tag 0xFF upper)) (s.liveCopy .argument) positionsInOrder
    refine ⟨_, hexec, hres, fun p k => ?_, sameBindings_of_tables htables, congrArg Tables.candidates htables,
      congrArg Tables.trigger htables, ackAll_notices _ _ _, (asked_pending_of_base hbase :)⟩
    have hmem : p ∈ positionsInOrder := List.mem_finRange p
    rw [← acknowledged_eq]
    exact (alertAt_ackAll _ _ _ _ _).trans (by simp only [hmem, true_and]; rfl)
  case range =>
    intro dt tag pos upper s h hbad
    have hrun (w : Word) : (s.asked dt w).runCommand (BitVec.ofNat 8 6) tag pos = (s.asked dt w, .refusedRange) := by
      have howner : (s.asked dt w).runCommand (BitVec.ofNat 8 6) tag pos =
          withTarget pos (s.asked dt w) (fun t => (s.asked dt w).commandAck t (s.liveCopy .argument)) := by
        rw [← asked_argument s dt w]
        rfl
      rw [howner]
      by_cases hmask : 128 ≤ (s.liveCopy .argument).toNat
      · unfold withTarget withPosition
        split
        · exact commandAck_range _ hmask
        · split
          · exact commandAck_range _ hmask
          · rfl
      · obtain ⟨hpos, hff⟩ := hbad.resolve_left hmask
        rw [withTarget, if_neg hff, withPosition_beyond _ _ hpos]
    obtain ⟨hexec, hres, -⟩ := command_taken (c := .ack dt tag pos upper 15) (code := 6) (upper := upper) h rfl (hrun _)
    exact ⟨_, hexec, hres, rfl, rfl⟩

/-! ### LOCATE and RECHECK (R84) -/

section
variable {s : State} {cs : List Coil} {tag : Byte}

theorem offerCommands_nil (h : cs = []) : s.offerCommands cs tag = (s, .refusedState) := by
  rw [h]
  rfl

theorem offerCommands_queued (h : cs ≠ []) : s.offerCommands cs tag = (s.offerEach cs .command tag, .queued) :=
  if_neg (by rw [List.isEmpty_iff]; exact h)

end

/-- R84: what a command that queues requests for a list of available coils does. -/
theorem offerCommands_run {s : State} {cs : List Coil} (tag : Byte) (hrun : s.control.op = .run) (hne : cs ≠ [])
    (havail : ∀ c ∈ cs, s.available c = true) :
    s.offerCommands cs tag = ({ s with trigger := { s.trigger with
      queue := cs.foldl (fun q c => takeRequest q { coil := c, purpose := .command, attempts := 0, tag := tag })
        s.trigger.queue } }, .queued) := by
  rw [offerCommands_queued hne, offerEach_run _ _ hrun havail]

theorem mem_coilsInOrder (c : Coil) : c ∈ coilsInOrder := List.mem_finRange c

theorem available_asked (s : State) (dt : Nat) (w : Word) (c : Coil) : (s.asked dt w).available c = s.available c := rfl

theorem runCommand_locate (s : State) (p : Pos) (tag : Byte) :
    s.runCommand 4 tag (BitVec.ofNat 8 p.val) = s.commandLocateOne p tag := by
  have howner : s.runCommand 4 tag (BitVec.ofNat 8 p.val) = withTarget (BitVec.ofNat 8 p.val) s (fun t =>
      match t with
      | some p => s.commandLocateOne p tag
      | none => s.commandLocateAll tag) := rfl
  rw [howner, withTarget_index]

/-- Settles O51: LOCATE and RECHECK differ in the coils they name; what follows is `offerCommands_run`. -/
theorem locationCommandsQueueRequests : Obligations.LocationCommandsQueueRequests := by
  refine ⟨?one, ?spare, ?all, ?recheck⟩
  case one =>
    intro dt tag upper p c s h hserves havail hnew
    have hrun (w : Word) : (s.asked dt w).runCommand (BitVec.ofNat 8 4) tag (BitVec.ofNat 8 p.val) =
        ({ s.asked dt w with trigger := { s.trigger with
          queue := s.trigger.queue ++ [{ coil := c, purpose := .command, attempts := 0, tag := tag }] } }, .queued) := by
      have hcoils : ((servingCoil s.layout p).filter s.available).toList = [c] := by
        rw [hserves]
        simp [Option.filter, havail]
      have howner : (s.asked dt w).runCommand (BitVec.ofNat 8 4) tag (BitVec.ofNat 8 p.val) =
          (s.asked dt w).offerCommands ((servingCoil s.layout p).filter s.available).toList tag :=
        runCommand_locate (s.asked dt w) p tag
      rw [howner, hcoils, offerCommands_run (s := s.asked dt w) tag h.1 (List.cons_ne_nil _ _)
        (fun d hd => by rw [List.mem_singleton.mp hd]; exact havail)]
      exact congrArg (fun q => (({ s.asked dt w with trigger := { s.trigger with queue := q } } : State), CmdOutcome.queued))
        (takeRequest_new hnew)
    obtain ⟨hexec, hres, -⟩ := command_taken (c := .locate dt tag (BitVec.ofNat 8 p.val) upper 15) (code := 4)
      (upper := upper) h rfl (hrun _)
    exact ⟨_, hexec, hres, rfl, rfl, rfl, rfl, rfl⟩
  case spare =>
    intro dt tag upper p s h hspare
    have hcoils : ((servingCoil s.layout p).filter s.available).toList = [] := by
      have hside : sideCoil p = none := dif_neg (by omega)
      rw [servingCoil, hside, ite_self]
      rfl
    have hrun (w : Word) : (s.asked dt w).runCommand (BitVec.ofNat 8 4) tag (BitVec.ofNat 8 p.val) =
        (s.asked dt w, .refusedState) :=
      (runCommand_locate (s.asked dt w) p tag).trans (offerCommands_nil (s := s.asked dt w) hcoils)
    obtain ⟨hexec, hres, -⟩ := command_taken (c := .locate dt tag (BitVec.ofNat 8 p.val) upper 15) (code := 4)
      (upper := upper) h rfl (hrun _)
    exact ⟨_, hexec, hres, rfl, rfl⟩
  case all =>
    intro dt tag upper s h hsome
    have hmem : ∀ c, c ∈ coilsInOrder.filter (fun c => s.available c && !(servedBy s.layout c).isEmpty) ↔
        s.available c = true ∧ servedBy s.layout c ≠ [] := fun c => by
      simp [mem_coilsInOrder]
    obtain ⟨c₀, hc₀, hs₀⟩ := hsome
    have hrun (w : Word) := offerCommands_run (s := s.asked dt w) tag h.1
      (List.ne_nil_of_mem ((hmem c₀).mpr ⟨hc₀, hs₀⟩)) (fun c hc => ((hmem c).mp hc).1)
    obtain ⟨hexec, hres, -⟩ := command_taken (c := .locate dt tag 0xFF upper 15) (code := 4) h rfl (hrun _)
    exact ⟨_, hexec, hres, fun c hc hs => commanded_foldl _ _ c tag (Or.inl ((hmem c).mpr ⟨hc, hs⟩)), rfl, rfl, rfl⟩
  case recheck =>
    intro dt tag pos upper s h
    have hmem : ∀ c, c ∈ coilsInOrder.filter (fun c => s.available c && s.servesState c BindState.holdsId) ↔
        s.available c = true ∧ s.servesState c BindState.holdsId = true := fun c => by
      simp [mem_coilsInOrder]
    refine ⟨fun hsome => ?_, fun hnone => ?_⟩
    · obtain ⟨c₀, hc₀, hs₀⟩ := hsome
      have hrun (w : Word) := offerCommands_run (s := s.asked dt w) tag h.1
        (List.ne_nil_of_mem ((hmem c₀).mpr ⟨hc₀, hs₀⟩)) (fun c hc => ((hmem c).mp hc).1)
      obtain ⟨hexec, hres, -⟩ := command_taken (c := .recheck dt tag pos upper 15) (code := 5) h rfl (hrun _)
      exact ⟨_, hexec, hres, fun c hc hs => commanded_foldl _ _ c tag (Or.inl ((hmem c).mpr ⟨hc, hs⟩)), rfl, rfl, rfl⟩
    · have hnil : coilsInOrder.filter (fun c => s.available c && s.servesState c BindState.holdsId) = [] := by
        refine List.eq_nil_iff_forall_not_mem.mpr fun c hc => ?_
        obtain ⟨ha, hs⟩ := (hmem c).mp hc
        exact absurd (hnone c ha) (by rw [hs]; decide)
      have hrun (w : Word) := offerCommands_nil (s := s.asked dt w) (tag := tag) hnil
      obtain ⟨hexec, hres, -⟩ := command_taken (c := .recheck dt tag pos upper 15) (code := 5) h rfl (hrun _)
      exact ⟨_, hexec, hres, rfl, rfl⟩

/-! ### Commands that are not executed (R180) -/

/-- Each of the eight commands is a write of the command word with its code. -/
theorem exec_commandWrites {dt : Nat} {code tag pos upper : Byte} {en : BitVec 4} {x : Nat × Instr}
    (hx : x ∈ commandWrites dt code tag pos upper en) (s : State) :
    exec x.2 s = .next ((s.elapse dt).writesCommand x.1 tag pos upper en) := by
  simp only [commandWrites, List.mem_cons, List.not_mem_nil, or_false] at hx
  obtain rfl | rfl | rfl | rfl | rfl | rfl | rfl | rfl := hx <;> rfl

/-- R180: a partial write of the command word in RUN writes BAD_WRITE. -/
theorem takeCommand_partial {s : State} (m : Word) (hrun : s.control.op = .run) :
    s.takeCommand m false = s.writeResult (m.extractLsb' 0 8) (m.extractLsb' 8 8) .badWrite :=
  (if_neg (not_not.mpr hrun)).trans (if_pos rfl)

theorem takeCommand_loading {s : State} (m : Word) (b : Bool) (h : s.control.op ≠ .run) : s.takeCommand m b = s := if_pos h

/-- R175, R180: in LOADING a write of the command word changes memory and the copy only. -/
theorem writesCommand_loading {s : State} (code : Nat) (tag pos upper : Byte) (en : BitVec 4)
    (hload : s.control.op = .loading) (h : memoryFree s) :
    ∃ (m : List Host.Cell) (p : Ports) (v : Vector Word 6), s.writesCommand code tag pos upper en =
      { s with mem := m, ports := p, snoop := { s.snoop with live := v } } := by
  by_cases hen : en = 0
  · obtain ⟨hheld, hbus, hover⟩ := h
    refine ⟨_, _, _, (writesSetting_free s _ _ (by decide) hheld hbus hover).trans (if_pos (Or.inr hen))⟩
  · have hlive := writesSetting_live (s := s) (w := { enables := en, data := commandWord code tag pos upper }) .command
      ⟨Or.inl hload, h⟩ hen
    refine ⟨_, _, _, hlive.trans (takeCommand_loading _ _ ?_)⟩
    change s.control.op ≠ .run
    rw [hload]
    decide

/-- Settles O54: the three ways in which a write of the command word is no executed command. -/
theorem commandsThatAreNotExecuted : Obligations.CommandsThatAreNotExecuted := by
  refine ⟨?unnamed, ?badWrite, ?loading⟩
  case unnamed =>
    intro dt code tag pos upper s h hcode
    have hself : BitVec.ofNat 8 code.toNat = code := by rw [BitVec.ofNat_toNat, BitVec.setWidth_eq]
    have hrun (w : Word) : (s.asked dt w).runCommand (BitVec.ofNat 8 code.toNat) tag pos =
        (s.asked dt w, .refusedRange) := by
      rw [hself]
      unfold State.runCommand
      dsimp only
      split <;> first | rfl | (next heq => rw [heq] at hcode; exact absurd hcode (by decide))
    obtain ⟨hexec, hres, -⟩ := command_taken (c := .commandCodeNamesNoCommand dt code tag pos upper 15)
      (code := code.toNat) (upper := upper) h rfl (hrun _)
    rw [hself] at hexec hres
    exact ⟨_, hexec, hres, rfl, rfl, rfl, rfl, rfl⟩
  case badWrite =>
    intro dt code tag pos upper en x s h hne hen hx m
    obtain ⟨hrun, hfree⟩ := h
    have hlive := writesSetting_live (s := s.elapse dt)
      (w := { enables := en, data := commandWord x.1 tag pos upper }) .command ⟨Or.inr hrun, hfree⟩ hen
    have hpart : ((en == 15) : Bool) = false := beq_eq_false_iff_ne.mpr hne
    have hexec := exec_commandWrites hx s
    rw [State.writesCommand, hlive, hpart] at hexec
    exact ⟨_, hexec.trans (congrArg Host.Outcome.next (takeCommand_partial _ hrun)), ⟨rfl, rfl⟩, rfl, rfl, rfl, rfl, rfl⟩
  case loading =>
    intro dt code tag pos upper en x s hload hfree hx
    obtain ⟨m, p, v, hwrite⟩ := writesCommand_loading (s := s.elapse dt) x.1 tag pos upper en hload hfree
    have hexec := exec_commandWrites hx s
    rw [hwrite] at hexec
    exact ⟨_, hexec, rfl, rfl, rfl, rfl, rfl, rfl, rfl⟩

end Sys2Proof.Machine
end

section
/-! The commands that change a binding: BIND (R10, R11), UNBIND (R12) and SWAP (R13). A record besides the one that an
operation changes keeps everything but its alerts and, at most, its move claim (`PosRec.keptBut`). -/

namespace Sys2Proof.Machine
open Sys2Proof.Claim

/-! ### Records besides a changed one (R21) -/

/-- A record that is the same but for its alerts, and that has its move claim or none. -/
def PosRec.keptBut (r u : PosRec) : Prop := ∃ x, (x = r.claim ∨ x = none) ∧ u.core = { r.core with claim := x }

theorem PosRec.keptBut_of_core {r u : PosRec} (h : u.core = r.core) : r.keptBut u := ⟨r.claim, .inl rfl, h⟩

theorem PosRec.keptBut_refl (r : PosRec) : r.keptBut r := PosRec.keptBut_of_core rfl

theorem PosRec.keptBut_trans {r u v : PosRec} (h : r.keptBut u) (h' : u.keptBut v) : r.keptBut v := by
  obtain ⟨x, hx, hu⟩ := h
  obtain ⟨y, hy, hv⟩ := h'
  have hclaim : u.claim = x := (congrArg PosRec.claim hu :)
  refine ⟨y, ?_, by rw [hv, hu]⟩
  rw [hclaim] at hy
  exact hy.elim (fun h => h ▸ hx) .inr

theorem keptBut_besides {s t : State} {p q : Pos} {c : Cause} (h : (t.posAt q).core = s.besides p q c) :
    (s.posAt q).keptBut (t.posAt q) := ⟨_, claimAfter_cases s p c _, h⟩

theorem keptBut_giveUp (s : State) {p q : Pos} (b : BindState) (c : Cause) (h : q ≠ p) :
    (s.posAt q).keptBut ((s.giveUp p b c).posAt q) := keptBut_besides (core_giveUp_other s b c h)

theorem keptBut_takeId (s : State) {p q : Pos} (i : SensorId) (c : Cause) (h : q ≠ p) :
    (s.posAt q).keptBut ((s.takeId p i c).posAt q) := keptBut_besides (core_takeId_other s i c h)

theorem keptBut_receive (s : State) {p q : Pos} (x : Option SensorId) (c : Cause) (h : q ≠ p) :
    (s.posAt q).keptBut ((s.receive p x c).posAt q) := by
  cases x with
  | none => exact keptBut_giveUp s _ c h
  | some i => exact keptBut_takeId s i c h

section
variable {r u : PosRec}

theorem PosRec.keptBut_state (h : r.keptBut u) : u.state = r.state := by
  obtain ⟨x, -, h⟩ := h
  exact (congrArg PosRec.state h :)
theorem PosRec.keptBut_id (h : r.keptBut u) : u.id = r.id := by
  obtain ⟨x, -, h⟩ := h
  exact (congrArg PosRec.id h :)
theorem PosRec.keptBut_epoch (h : r.keptBut u) : u.epoch = r.epoch := by
  obtain ⟨x, -, h⟩ := h
  exact (congrArg PosRec.epoch h :)
theorem PosRec.keptBut_sample (h : r.keptBut u) : u.sample = r.sample := by
  obtain ⟨x, -, h⟩ := h
  exact (congrArg PosRec.sample h :)
theorem PosRec.keptBut_interval (h : r.keptBut u) : u.interval = r.interval := by
  obtain ⟨x, -, h⟩ := h
  exact (congrArg PosRec.interval h :)
theorem PosRec.keptBut_deadline (h : r.keptBut u) : u.deadline = r.deadline := by
  obtain ⟨x, -, h⟩ := h
  exact (congrArg PosRec.deadline h :)

theorem PosRec.keptBut_empty (h : r.keptBut u) (he : sensorFieldsEmpty r) : sensorFieldsEmpty u := by
  obtain ⟨x, hx, h⟩ := h
  obtain ⟨hs, ht, hl, hk, hc⟩ := he
  have hnone : x = none := hx.elim (fun h => h.trans hc) fun h => h
  exact ⟨(congrArg PosRec.sample h :).trans hs, (congrArg PosRec.lastTemp h :).trans ht,
    (congrArg PosRec.homeLane h :).trans hl, (congrArg PosRec.leak h :).trans hk, (congrArg PosRec.claim h :).trans hnone⟩

theorem tookId_kept {v : PosRec} {i : SensorId} (h : tookId v r i) (hk : r.keptBut u) : tookId v u i := by
  obtain ⟨hs, hi, he, hf⟩ := h
  exact ⟨(PosRec.keptBut_state hk).trans hs, (PosRec.keptBut_id hk).trans hi, (PosRec.keptBut_epoch hk).trans he,
    PosRec.keptBut_empty hk hf⟩

theorem gaveUpId_kept {v : PosRec} (h : gaveUpId v r) (hk : r.keptBut u) : gaveUpId v u := by
  obtain ⟨hs, hi, he, hf, hint, hd⟩ := h
  exact ⟨(PosRec.keptBut_state hk).trans hs, (PosRec.keptBut_id hk).trans hi, (PosRec.keptBut_epoch hk).trans he,
    PosRec.keptBut_empty hk hf, (PosRec.keptBut_interval hk).trans hint, (PosRec.keptBut_deadline hk).trans hd⟩

end

theorem keepsBinding_of_kept {s t : State} {p : Pos} (h : (s.posAt p).keptBut (t.posAt p)) : keepsBinding s t p :=
  ⟨PosRec.keptBut_state h, PosRec.keptBut_id h, PosRec.keptBut_epoch h, PosRec.keptBut_sample h⟩

/-! ### The changed record (R5, R7, R8, R9) -/

theorem tookId_takeId (s : State) (p : Pos) (i : SensorId) (c : Cause) :
    tookId (s.posAt p) ((s.takeId p i c).posAt p) i := by
  have h := core_takeId_same s p i c
  exact ⟨takeId_state s p i c, takeId_id s p i c, (congrArg PosRec.epoch h :), (congrArg PosRec.sample h :),
    (congrArg PosRec.lastTemp h :), (congrArg PosRec.homeLane h :), (congrArg PosRec.leak h :), takeId_claim s p i c⟩

theorem gaveUpId_giveUp (s : State) (p : Pos) (c : Cause) :
    gaveUpId (s.posAt p) ((s.giveUp p .unlearned c).posAt p) := by
  have h := core_giveUp_same s p .unlearned c
  exact ⟨giveUp_state s p _ c, giveUp_id s p _ c, (congrArg PosRec.epoch h :),
    ⟨(congrArg PosRec.sample h :), (congrArg PosRec.lastTemp h :), (congrArg PosRec.homeLane h :),
      (congrArg PosRec.leak h :), giveUp_claim s p _ c⟩, (congrArg PosRec.interval h :), (congrArg PosRec.deadline h :)⟩

/-- R13: a record that receives an ID is BOUND with it, one that receives none is UNLEARNED; its sensor fields are empty. -/
theorem receive_same (s : State) (p : Pos) (x : Option SensorId) (c : Cause) :
    ((s.receive p x c).posAt p).state = (if x.isSome then .bound else .unlearned) ∧
      ((s.receive p x c).posAt p).epoch = (s.posAt p).epoch + 1 ∧ sensorFieldsEmpty ((s.receive p x c).posAt p) := by
  cases x with
  | none =>
    obtain ⟨hs, -, he, hf, -, -⟩ := gaveUpId_giveUp s p c
    exact ⟨hs, he, hf⟩
  | some i =>
    obtain ⟨hs, -, he, hf⟩ := tookId_takeId s p i c
    exact ⟨hs, he, hf⟩

theorem clear_withdraw {s : State} {p q : Pos} {k j : AlertKind} (h : (s.alertAt p j).state = .clear) :
    ((s.withdraw q k).alertAt p j).state = .clear := by
  rw [alertAt_withdraw]
  split
  · rfl
  · exact h

/-- R9: every alert record of the position is CLEAR after its ID is withdrawn. -/
theorem clear_giveUp (s : State) (p : Pos) (b : BindState) (c : Cause) (k : AlertKind) :
    ((s.giveUp p b c).alertAt p k).state = .clear := by
  have hall : ((s.withdrawAll p).alertAt p k).state = .clear := by
    rw [alertAt_withdrawAll, if_pos rfl]
    rfl
  have hpair : (((s.withdrawAll p).withdrawPair p).alertAt p k).state = .clear := by
    unfold State.withdrawPair
    split
    · exact clear_withdraw hall
    · exact hall
  have hflag : ((((s.withdrawAll p).withdrawPair p).clearRecheck p c).alertAt p k) =
      (((s.withdrawAll p).withdrawPair p).alertAt p k) := by
    unfold State.alertAt
    rw [posAt_clearRecheck]
  unfold State.giveUp
  dsimp only
  rw [alertAt_modPos_same (s := ((s.withdrawAll p).withdrawPair p).clearRecheck p c) rfl, hflag]
  exact hpair

/-! ### BIND (R10, R11) -/

/-- R10: the state in which the holder of an ID has lost it. -/
def State.freed (s : State) (i : SensorId) (tag : Byte) : State :=
  match s.holder i with
  | some q => s.loseTo q i tag
  | none => s

theorem bindOther_eq (s : State) (p : Pos) (i : SensorId) (tag : Byte) : s.bindOther p i tag =
    (((s.freed i tag).takeId p i .command).markOutOfCare p).notify .bound (some p) tag i 0 := rfl

theorem freed_base (s : State) (i : SensorId) (tag : Byte) : (s.freed i tag).base = s.base := by
  unfold State.freed
  split
  · simp [State.loseTo]
  · rfl

theorem freed_candidates (s : State) (i : SensorId) (tag : Byte) : (s.freed i tag).candidates = s.candidates := by
  unfold State.freed
  split
  · rw [State.loseTo, notify_candidates]
    exact (candidates_of_aside (giveUp_aside s _ .unlearned .command)).trans rfl
  · rfl

theorem posAt_loseTo (s : State) (q r : Pos) (i : SensorId) (tag : Byte) :
    (s.loseTo q i tag).posAt r = (s.giveUp q .unlearned .command).posAt r := by
  rw [State.loseTo, posAt_notify, posAt_markOutOfCare]

theorem freed_holder {s : State} {q : Pos} {i : SensorId} (tag : Byte) (h : s.holder i = some q) :
    gaveUpId (s.posAt q) ((s.freed i tag).posAt q) := by
  rw [State.freed, h]
  dsimp only
  rw [posAt_loseTo]
  exact gaveUpId_giveUp s q .command

theorem freed_other {s : State} {q : Pos} {i : SensorId} (tag : Byte) (h : s.holder i ≠ some q) :
    (s.posAt q).keptBut ((s.freed i tag).posAt q) := by
  unfold State.freed
  split
  · next x hx =>
    have hne : q ≠ x := fun e => h (e ▸ hx)
    rw [posAt_loseTo]
    exact keptBut_giveUp s _ _ hne
  · exact PosRec.keptBut_refl _

/-- R10, R54: the ID leaves the candidate list. -/
theorem mem_candidates_takeId (s : State) (p : Pos) (i : SensorId) (c : Cause) (e : Candidate) :
    e ∈ (s.takeId p i c).candidates ↔ e ∈ s.candidates ∧ e.id ≠ i := by
  rw [candidates_of_aside (takeId_aside s p i c), State.removeCandidate, List.mem_filter, bne_iff_ne]

section
variable {s : State} {p : Pos} {i : SensorId} {tag : Byte}

theorem commandBind_other (hp : (s.posAt p).state ≠ .vacant) (hi : validId i = true) (hne : (s.posAt p).id ≠ some i) :
    s.commandBind p i tag = (s.bindOther p i tag, .done) := by
  rw [State.commandBind, if_neg (by simp [hp, hi]), if_neg hne]

theorem commandBind_own (hp : (s.posAt p).state ≠ .vacant) (hi : validId i = true) (hid : (s.posAt p).id = some i) :
    s.commandBind p i tag = (s.bindOwn p i tag, .done) := by
  rw [State.commandBind, if_neg (by simp [hp, hi]), if_pos hid]

theorem commandBind_refused (h : (s.posAt p).state = .vacant ∨ validId i = false) :
    s.commandBind p i tag = (s, .refusedState) := if_pos h

end

theorem runCommand_bind (s : State) (p : Pos) (tag : Byte) :
    s.runCommand 1 tag (BitVec.ofNat 8 p.val) = s.commandBind p (s.liveCopy .argument) tag := by
  have howner : s.runCommand 1 tag (BitVec.ofNat 8 p.val) =
      withPosition (BitVec.ofNat 8 p.val) s (fun p => s.commandBind p (s.liveCopy .argument) tag) := rfl
  rw [howner, withPosition_index]

/-- BIND at a position, as it is taken in RUN. -/
theorem bind_taken {s : State} {dt : Nat} {tag upper : Byte} {p : Pos} {o : State → State × CmdOutcome}
    (h : takesCommands s)
    (ho : ∀ w, (s.asked dt w).commandBind p (s.liveCopy .argument) tag = o (s.asked dt w)) :
    ∃ u, u = s.asked dt (commandWord 1 tag (BitVec.ofNat 8 p.val) upper) ∧
      exec (.bind dt tag (BitVec.ofNat 8 p.val) upper 15) s = .next ((o u).1.writeResult 1 tag (o u).2) ∧
      resultIs s ((o u).1.writeResult 1 tag (o u).2) 1 tag (o u).2 ∧ (o u).1.base = u.base := by
  refine ⟨_, rfl, command_taken (c := .bind dt tag (BitVec.ofNat 8 p.val) upper 15) (code := 1) (upper := upper) h rfl
    ((runCommand_bind _ p tag).trans ?_)⟩
  rw [asked_argument]
  exact ho _

/-- Settles O47: the holder loses the ID (`freed_holder`), the position takes it (`tookId_takeId`), and every other record is
kept through both. -/
theorem bindPlacesTheId : Obligations.BindPlacesTheId := by
  intro dt tag upper p s h hvalid hused hne
  obtain ⟨u, rfl, hexec, hres, hbase⟩ := bind_taken (upper := upper) (dt := dt) (tag := tag) (p := p)
    (o := fun u => (u.bindOther p (s.liveCopy .argument) tag, .done)) h
    (fun w => commandBind_other (s := s.asked dt w) hused hvalid hne)
  have hsettings := asked_settings_of_base hbase
  have hsweep := asked_sweep_of_base hbase
  have hpending := asked_pending_of_base hbase
  clear hbase
  generalize s.liveCopy .argument = i at *
  generalize hu : s.asked dt (commandWord 1 tag (BitVec.ofNat 8 p.val) upper) = u at *
  have hpos (q : Pos) : u.posAt q = s.posAt q := by rw [← hu]; rfl
  have hholder : u.holder i = s.holder i := by rw [← hu]; rfl
  have hafter (q : Pos) : ((u.bindOther p i tag).posAt q) = ((u.freed i tag).takeId p i .command).posAt q := by
    rw [bindOther_eq, posAt_notify, posAt_markOutOfCare]
  have hpfree : (s.posAt p).keptBut ((u.freed i tag).posAt p) := by
    rw [← hpos]
    exact freed_other tag (fun hh => hne (hpos p ▸ id_of_holder hh))
  have htook : tookId (s.posAt p) ((u.bindOther p i tag).posAt p) i := by
    obtain ⟨hs, hi, he, hf⟩ := tookId_takeId (u.freed i tag) p i .command
    rw [hafter]
    exact ⟨hs, hi, by rw [he, PosRec.keptBut_epoch hpfree], hf⟩
  obtain ⟨hstate, hid, hepoch, hempty⟩ := htook
  have hcore := core_takeId_same (u.freed i tag) p i .command
  have hop : (u.freed i tag).control.op = .run := by
    have hop : (u.freed i tag).control.op = u.control.op := (congrArg Base.op (freed_base u i tag) :)
    rw [hop, ← hu]
    exact h.1
  have hnow : (u.freed i tag).now = s.now + dt := by
    have hnow : (u.freed i tag).now = u.now := (congrArg Base.now (freed_base u i tag) :)
    rw [hnow, ← hu]
    rfl
  rw [if_pos hop, hnow] at hcore
  refine ⟨_, hexec, hres, hstate, hid, hepoch, hempty, ?deadline, ?missed, ?recheck, ?holder, ?others, ?candidates,
    ?settings, ?sweep, ?pending⟩
  case deadline =>
    refine Eq.trans (congrArg PosRec.deadline (hafter p) :) ?_
    exact (congrArg PosRec.deadline hcore :)
  case missed =>
    refine Eq.trans (congrArg PosRec.missed (hafter p) :) ?_
    exact (congrArg PosRec.missed hcore :)
  case recheck =>
    refine Eq.trans (congrArg PosRec.recheck (hafter p) :) ?_
    exact (congrArg PosRec.recheck hcore :)
  case holder =>
    intro q hq
    have hqp : q ≠ p := fun e => hne (e ▸ id_of_holder hq)
    have hgave := gaveUpId_kept (freed_holder tag (hholder.trans hq)) (keptBut_takeId (u.freed i tag) i .command hqp)
    rw [hpos, ← hafter] at hgave
    exact hgave
  case others =>
    intro q hqp hq
    have hkept := PosRec.keptBut_trans (freed_other tag (fun hh => hq (hholder ▸ hh)))
      (keptBut_takeId (u.freed i tag) i .command hqp)
    rw [hpos, ← hafter] at hkept
    exact ⟨PosRec.keptBut_state hkept, PosRec.keptBut_id hkept, PosRec.keptBut_epoch hkept, PosRec.keptBut_sample hkept,
      PosRec.keptBut_interval hkept, PosRec.keptBut_deadline hkept⟩
  case candidates =>
    intro c
    have hc : (u.bindOther p i tag).candidates = ((u.freed i tag).takeId p i .command).candidates := by
      rw [bindOther_eq, notify_candidates]
      rfl
    have hlist : u.candidates = s.candidates := by rw [← hu]; rfl
    have hmem := mem_candidates_takeId (u.freed i tag) p i .command c
    rw [freed_candidates, ← hc, hlist] at hmem
    exact hmem
  case settings => exact hsettings
  case sweep => exact hsweep
  case pending => exact hpending

/-! #### BIND of the position's own ID (R11) -/

theorem posAt_applyMove_other (s : State) {p q : Pos} (k : AlertKind) (m : AlertRec × AlertEvent) (v : Int) (h : q ≠ p) :
    (s.applyMove p k m v).posAt q = s.posAt q := by
  unfold State.applyMove
  split <;> simp only [posAt_alertNotice, posAt_setAlert, if_neg h]

theorem posAt_endSilent_other (s : State) {p q : Pos} (h : q ≠ p) : (s.endSilent p).posAt q = s.posAt q := by
  unfold State.endSilent
  dsimp only
  split
  · split
    · rw [posAt_applyMove_other _ _ _ _ h, posAt_modPos_other _ _ _ _ h]
    · exact posAt_modPos_other _ _ _ _ h
  · rfl

theorem posAt_settleSilent_other (s : State) {p q : Pos} (b : BindState) (h : q ≠ p) :
    (s.settleSilent p b).posAt q = s.posAt q := by
  unfold State.settleSilent
  split
  · exact posAt_endSilent_other s h
  · rfl

/-- R11: what BIND of its own ID leaves of the position's record. -/
theorem core_bindOwn_same (s : State) (p : Pos) (i : SensorId) (tag : Byte) :
    ((s.bindOwn p i tag).posAt p).core = { (s.posAt p).core with
      state := .bound, claim := none, deadline := if s.control.op = .run then some s.now else none } := by
  unfold State.bindOwn
  dsimp only
  rw [posAt_notify, posAt_markOutOfCare, core_of_tables (settleSilent_tables _ p _), State.arm, posAt_modPos_same,
    posAt_modPos_same]
  rfl

theorem posAt_bindOwn_other (s : State) {p q : Pos} (i : SensorId) (tag : Byte) (h : q ≠ p) :
    (s.bindOwn p i tag).posAt q = s.posAt q := by
  unfold State.bindOwn
  dsimp only
  rw [posAt_notify, posAt_markOutOfCare, posAt_settleSilent_other _ _ h, State.arm, posAt_modPos_other _ _ _ _ h,
    posAt_modPos_other _ _ _ _ h]

theorem bindOwn_candidates (s : State) (p : Pos) (i : SensorId) (tag : Byte) :
    (s.bindOwn p i tag).candidates = s.candidates := by
  unfold State.bindOwn
  dsimp only
  rw [notify_candidates]
  exact (candidates_of_aside (settleSilent_aside _ p _)).trans rfl

/-- Settles O48: the record of `core_bindOwn_same`, and the rows that refuse. -/
theorem bindConfirmsOrIsRefused : Obligations.BindConfirmsOrIsRefused := by
  refine ⟨fun dt tag upper p s h hvalid hused hid => ?_, fun dt tag pos upper s h => ⟨fun hpos => ?_, fun p hp hbad => ?_⟩⟩
  · obtain ⟨u, rfl, hexec, hres, hbase⟩ := bind_taken (upper := upper) (dt := dt) (tag := tag) (p := p)
      (o := fun u => (u.bindOwn p (s.liveCopy .argument) tag, .done)) h
      (fun w => commandBind_own (s := s.asked dt w) hused hvalid hid)
    have hcore := core_bindOwn_same (s.asked dt (commandWord 1 tag (BitVec.ofNat 8 p.val) upper)) p
      (s.liveCopy .argument) tag
    have hop : (s.asked dt (commandWord 1 tag (BitVec.ofNat 8 p.val) upper)).control.op = .run := h.1
    simp only [hop, if_true] at hcore
    exact ⟨_, hexec, hres, (congrArg PosRec.state hcore :), (congrArg PosRec.id hcore :),
      (congrArg PosRec.epoch hcore :), (congrArg PosRec.sample hcore :), (congrArg PosRec.claim hcore :),
      (congrArg PosRec.deadline hcore :), fun q hq => posAt_bindOwn_other _ _ _ hq, bindOwn_candidates _ _ _ _,
      (congrArg Base.pending hbase :)⟩
  · obtain ⟨hexec, hres, -⟩ := command_taken (c := .bind dt tag pos upper 15) (code := 1) (upper := upper) h rfl
      (withPosition_beyond (s.asked dt (commandWord 1 tag pos upper)) _ hpos)
    exact ⟨_, hexec, hres, rfl, rfl, rfl⟩
  · subst hp
    have hrefuse : (s.posAt p).state = .vacant ∨ validId (s.liveCopy .argument) = false := by
      obtain hv | h0 | hF := hbad
      · exact .inl hv
      · exact .inr (by rw [h0]; rfl)
      · exact .inr (by rw [hF]; rfl)
    obtain ⟨u, rfl, hexec, hres, -⟩ := bind_taken (upper := upper) (dt := dt) (tag := tag) (p := p)
      (o := fun u => (u, .refusedState)) h (fun w => commandBind_refused (s := s.asked dt w) hrefuse)
    exact ⟨_, hexec, hres, rfl, rfl, rfl⟩

/-! ### UNBIND (R12) -/

section
variable {s : State} {p : Pos} {tag : Byte}

theorem commandUnbind_holding (h : (s.posAt p).state.holdsId = true) : s.commandUnbind p tag =
    (((s.giveUp p .unlearned .command).markOutOfCare p).notify .unbound (some p) tag ((s.posAt p).id.getD 0) 0, .done) := by
  unfold State.commandUnbind
  split
  all_goals next hs => first | rfl | (rw [hs] at h; cases h)

theorem commandUnbind_locating (h : (s.posAt p).state = .locating) : s.commandUnbind p tag =
    ((s.modPos p (fun r => { r with state := .unlearned })).markOutOfCare p, .done) := by
  unfold State.commandUnbind
  rw [h]

theorem commandUnbind_empty (h : (s.posAt p).state = .unlearned ∨ (s.posAt p).state = .vacant) : s.commandUnbind p tag =
    (s, if (s.posAt p).state = .vacant then .refusedState else .done) := by
  unfold State.commandUnbind
  obtain h | h := h
  · rw [h]
    rfl
  · rw [h]
    rfl

end

theorem runCommand_unbind (s : State) (p : Pos) (tag : Byte) :
    s.runCommand 2 tag (BitVec.ofNat 8 p.val) = s.commandUnbind p tag := by
  have howner : s.runCommand 2 tag (BitVec.ofNat 8 p.val) =
      withPosition (BitVec.ofNat 8 p.val) s (fun p => s.commandUnbind p tag) := rfl
  rw [howner, withPosition_index]

/-- Settles O49: the rows of `commandUnbind`; the record that gives up its ID is that of `gaveUpId_giveUp`. -/
theorem unbindDropsTheId : Obligations.UnbindDropsTheId := by
  intro dt tag upper p s h
  have hrun (w : Word) := runCommand_unbind (s.asked dt w) p tag
  refine ⟨fun hs => ?holding, fun hs => ?locating, fun hs => ?empty⟩
  case holding =>
    obtain ⟨hexec, hres, hbase⟩ := command_taken (c := .unbind dt tag (BitVec.ofNat 8 p.val) upper 15) (code := 2)
      (upper := upper) h rfl ((hrun _).trans (commandUnbind_holding (s := s.asked dt _) hs))
    have hpending := asked_pending_of_base hbase
    clear hbase
    generalize hu : s.asked dt (commandWord 2 tag (BitVec.ofNat 8 p.val) upper) = u at *
    have hpos (q : Pos) : u.posAt q = s.posAt q := by rw [← hu]; rfl
    have hafter (q : Pos) : (((u.giveUp p .unlearned .command).markOutOfCare p).notify .unbound (some p) tag
        ((u.posAt p).id.getD 0) 0).posAt q = (u.giveUp p .unlearned .command).posAt q := by
      rw [posAt_notify, posAt_markOutOfCare]
    have hcore := core_giveUp_same u p .unlearned .command
    have hgave := gaveUpId_giveUp u p .command
    rw [hpos, ← hafter] at hgave
    rw [← hafter] at hcore
    obtain ⟨hstate, hid, hepoch, hempty, hint, hdead⟩ := hgave
    refine ⟨_, hexec, hres, hstate, hid, hepoch, hempty, hint, hdead, (congrArg PosRec.drift hcore :),
      (congrArg PosRec.missed hcore :), fun k => ?_, fun q hq => ?_, ?_, hpending⟩
    · refine Eq.trans (congrArg AlertRec.state ?_) (clear_giveUp u p .unlearned .command k)
      exact congrArg (fun r : PosRec => r.alerts.get k) (hafter p)
    · have hkept := keptBut_giveUp u .unlearned .command hq
      rw [hpos, ← hafter] at hkept
      exact keepsBinding_of_kept (s := s) hkept
    · refine Eq.trans (notify_candidates ..) ((candidates_of_aside (giveUp_aside u p .unlearned .command)).trans ?_)
      rw [← hu]
      rfl
  case locating =>
    obtain ⟨hexec, hres, -⟩ := command_taken (c := .unbind dt tag (BitVec.ofNat 8 p.val) upper 15) (code := 2)
      (upper := upper) h rfl ((hrun _).trans (commandUnbind_locating (s := s.asked dt _) hs))
    exact ⟨_, hexec, hres, posAt_modPos_same s p (fun r => { r with state := .unlearned }),
      fun q hq => posAt_modPos_other s p q (fun r => { r with state := .unlearned }) hq, rfl, rfl, rfl⟩
  case empty =>
    obtain ⟨hexec, hres, -⟩ := command_taken (c := .unbind dt tag (BitVec.ofNat 8 p.val) upper 15) (code := 2)
      (upper := upper) h rfl ((hrun _).trans (commandUnbind_empty (s := s.asked dt _) hs))
    exact ⟨_, hexec, hres, rfl, rfl, rfl, rfl, rfl⟩

/-! ### SWAP (R13) -/

section
variable {s : State} {p q : Pos} {a : Word} {tag : Byte}

theorem posOfByte_val (q : Pos) : posOfByte q.val = some q := dif_pos q.isLt

theorem commandSwap_done (ha : bits a 0 8 = q.val) (hpq : p ≠ q) (hp : (s.posAt p).state ≠ .vacant)
    (hq : (s.posAt q).state ≠ .vacant) (hid : (s.posAt p).id.isSome = true ∨ (s.posAt q).id.isSome = true) :
    s.commandSwap p a tag = (s.swapPositions p q tag, .done) := by
  have hsome : ¬ ((s.posAt p).id = none ∧ (s.posAt q).id = none) := by
    rintro ⟨h1, h2⟩
    rw [h1, h2] at hid
    exact hid.elim nofun nofun
  rw [State.commandSwap, ha, posOfByte_val]
  exact if_neg (by tauto)

theorem commandSwap_range (ha : 25 < bits a 0 8) : s.commandSwap p a tag = (s, .refusedRange) := by
  have hnone : posOfByte (bits a 0 8) = none := dif_neg (by omega)
  rw [State.commandSwap, hnone]

theorem commandSwap_refused (ha : bits a 0 8 = q.val) (h : p = q ∨ (s.posAt p).state = .vacant ∨
    (s.posAt q).state = .vacant ∨ ((s.posAt p).id = none ∧ (s.posAt q).id = none)) :
    s.commandSwap p a tag = (s, .refusedState) := by
  rw [State.commandSwap, ha, posOfByte_val]
  exact if_pos (by tauto)

end

theorem runCommand_swap (s : State) (p : Pos) (tag : Byte) :
    s.runCommand 3 tag (BitVec.ofNat 8 p.val) = s.commandSwap p (s.liveCopy .argument) tag := by
  have howner : s.runCommand 3 tag (BitVec.ofNat 8 p.val) =
      withPosition (BitVec.ofNat 8 p.val) s (fun p => s.commandSwap p (s.liveCopy .argument) tag) := rfl
  rw [howner, withPosition_index]

theorem posAt_swapPositions (s : State) (p q r : Pos) (tag : Byte) : (s.swapPositions p q tag).posAt r =
    ((s.receive p (s.posAt q).id .command).receive q (s.posAt p).id .command).posAt r := by
  unfold State.swapPositions
  rw [posAt_notify, posAt_markOutOfCare, posAt_markOutOfCare, exchange_eq]

/-- Settles O50: an exchange is a receipt at each of the two positions (`exchange_eq`, `receive_same`). -/
theorem swapExchangesTheIds : Obligations.SwapExchangesTheIds := by
  have hrun (s : State) (dt : Nat) (p : Pos) (tag : Byte) (w : Word) :
      (s.asked dt w).runCommand 3 tag (BitVec.ofNat 8 p.val) =
        (s.asked dt w).commandSwap p (s.liveCopy .argument) tag := by
    rw [runCommand_swap, asked_argument]
  refine ⟨fun dt tag upper p q s h ha hpq hp hq hid => ?_, fun dt tag upper p s h ha => ?_,
    fun dt tag upper p q s h ha hbad => ?_⟩
  · obtain ⟨hexec, hres, hbase⟩ := command_taken (c := .swap dt tag (BitVec.ofNat 8 p.val) upper 15) (code := 3)
      (upper := upper) h rfl ((hrun s dt p tag _).trans (commandSwap_done (s := s.asked dt _) ha hpq hp hq hid))
    have hpos (r : Pos) := posAt_swapPositions (s.asked dt (commandWord 3 tag (BitVec.ofNat 8 p.val) upper)) p q r tag
    simp only [asked_posAt] at hpos
    have hpending := asked_pending_of_base hbase
    clear hbase
    generalize hu : s.asked dt (commandWord 3 tag (BitVec.ofNat 8 p.val) upper) = u at *
    have hu' (r : Pos) : u.posAt r = s.posAt r := by rw [← hu]; rfl
    generalize hx : (s.posAt q).id = x at *
    generalize hy : (s.posAt p).id = y at *
    have hqp : q ≠ p := hpq.symm
    obtain ⟨hps, hpe, hpf⟩ := receive_same u p x .command
    obtain ⟨hqs, hqe, hqf⟩ := receive_same (u.receive p x .command) q y .command
    have hkp := keptBut_receive (u.receive p x .command) y .command hpq
    have hkq := keptBut_receive u x .command hqp
    have hpid := receive_id u p x .command
    have hqid := receive_id (u.receive p x .command) q y .command
    rw [← hpos] at hkp hqs hqe hqf hqid
    refine ⟨_, hexec, hres, (PosRec.keptBut_id hkp).trans hpid, hqid, (PosRec.keptBut_state hkp).trans hps, hqs,
      ((PosRec.keptBut_epoch hkp).trans hpe).trans (by rw [hu']), hqe.trans (by rw [PosRec.keptBut_epoch hkq, hu']),
      PosRec.keptBut_empty hkp hpf, hqf, fun r hrp hrq => ?_, hpending⟩
    have hkept := PosRec.keptBut_trans (keptBut_receive u x .command hrp)
      (keptBut_receive (u.receive p x .command) y .command hrq)
    rw [← hpos, hu'] at hkept
    exact keepsBinding_of_kept (s := s) hkept
  · obtain ⟨hexec, hres, -⟩ := command_taken (c := .swap dt tag (BitVec.ofNat 8 p.val) upper 15) (code := 3)
      (upper := upper) h rfl ((hrun s dt p tag _).trans (commandSwap_range ha))
    exact ⟨_, hexec, hres, rfl, rfl⟩
  · obtain ⟨hexec, hres, -⟩ := command_taken (c := .swap dt tag (BitVec.ofNat 8 p.val) upper 15) (code := 3)
      (upper := upper) h rfl ((hrun s dt p tag _).trans (commandSwap_refused (s := s.asked dt _) ha hbad))
    exact ⟨_, hexec, hres, rfl, rfl⟩

end Sys2Proof.Machine
end

section
/-! Words that the snoop takes (R175 to R179, R184): the notice of a refusal, parked or placed in the ring (R160, R183), the
read index, the limit loader, and the settings words that are refused. -/

namespace Sys2Proof.Machine
open Sys2Proof.Claim

/-! ### A notice in the ring (R183, 11.4) -/

theorem alertByte_kind (a : Option (AlertKind × Level)) :
    alertByte a % 2 ^ 7 = (a.map fun x => x.1.num + 1).getD 0 ∧
      alertByte a / 2 ^ 7 = (a.map fun x => (x.2 == .alarm).toNat).getD 0 := by
  cases a with
  | none => decide
  | some x =>
    obtain ⟨k, l⟩ := x
    cases k <;> cases l <;> decide

theorem alertByte_lt (a : Option (AlertKind × Level)) : alertByte a < 256 := by
  cases a with
  | none => decide
  | some x =>
    obtain ⟨k, l⟩ := x
    cases k <;> cases l <;> decide

theorem positionByte_eq (p : Option Pos) :
    positionByte p = (p.map fun q => q.val).getD 0xFF ∧ positionByte p < 256 := by
  cases p with
  | none => exact ⟨rfl, by decide⟩
  | some q => exact ⟨rfl, Nat.lt_trans q.isLt (by decide)⟩

/-- 11.4: the words of a notice record hold its fields. -/
theorem noticeShows_words (n : Notice) : noticeShows n (fun i => n.words.getD i 0) := by
  have hkind : n.kind.code < 256 ∧ n.kind.category < 256 := by cases n.kind <;> decide
  obtain ⟨hposition, hposlt⟩ := positionByte_eq n.position
  obtain ⟨halert, hlevel⟩ := alertByte_kind n.alert
  have halertlt := alertByte_lt n.alert
  have hstamp := n.stamp.isLt
  have htag := n.tag.isLt
  obtain ⟨hcode, hcategory⟩ := hkind
  refine ⟨?_, ?_, ?_, ?_, ?_, rfl, rfl, ?_, ?_⟩
  all_goals
    simp only [Notice.words, List.getD_cons_zero, List.getD_cons_succ, ← hposition, ← halert, ← hlevel]
    simp only [bits, packed, field, BitVec.toNat_ofNat, List.sum_cons, List.sum_nil]
    omega

/-- R183: the writes of a notice at a slot, by number. -/
theorem noticeWrites_eq (n : Notice) (i : BitVec 7) : noticeWrites n i =
    (List.range 4).map fun k => { offset := 0x2000 + 16 * i.toNat + 4 * k, data := n.words.getD k 0 } := by
  simp only [noticeWrites, slotOffset, Notice.words, List.zipIdx_cons, List.zipIdx_nil, List.map_cons, List.map_nil,
    List.range_succ, List.range_zero, List.nil_append, List.cons_append, List.getD_cons_zero, List.getD_cons_succ,
    Nat.mul_comm i.toNat 16]

/-- R169: writes for offsets that differ and that are pending nowhere join the tail in order. -/
theorem foldl_addWrite_new {s : State} {ws : List KeptWrite} (hnew : ∀ w ∈ ws, pendingWrite s.path.queue w.offset = none)
    (hdistinct : (ws.map KeptWrite.offset).Nodup) :
    ws.foldl (fun t w => t.addWrite w.offset w.data .notice) s = { s with path := { s.path with
      queue := s.path.queue ++ ws.map fun w => { access := .write w.data, offset := w.offset, origin := .notice } } } := by
  induction ws generalizing s with
  | nil => rw [List.map_nil, List.append_nil]; rfl
  | cons w ws ih =>
    rw [List.map_cons, List.nodup_cons] at hdistinct
    obtain ⟨hw, hrest⟩ := hdistinct
    rw [List.foldl_cons, addWrite_new _ _ (hnew w List.mem_cons_self), ih _ hrest]
    · simp only [List.map_cons, List.append_assoc, List.cons_append, List.nil_append]
    · intro x hx
      have hne : w.offset ≠ x.offset := fun e => hw (e ▸ List.mem_map_of_mem hx)
      rw [pendingWrite_append, hnew x (List.mem_cons_of_mem w hx)]
      simp [pendingWrite, hne]

section
variable {s : State} {n : Notice}

/-- R183: the offsets of the notice's writes, with the ring slot free. -/
theorem noticeWrites_new (h : ringReady s) :
    (∀ w ∈ noticeWrites n s.notices.write, pendingWrite s.path.queue w.offset = none) ∧
      ((noticeWrites n s.notices.write).map KeptWrite.offset).Nodup := by
  rw [noticeWrites_eq]
  refine ⟨fun w hw => ?_, ?_⟩
  · obtain ⟨k, hk, rfl⟩ := List.mem_map.mp hw
    exact h.2 ⟨k, List.mem_range.mp hk⟩
  · rw [List.map_map]
    refine List.Nodup.map (fun a b hab => ?_) List.nodup_range
    simp only [Function.comp_apply] at hab
    omega

/-- R183: with the ring slot free, a notice is lost when the ring is full or fewer than four entries are free. -/
theorem losesNotice_iff (h : ringReady s) (hop : s.control.op = .run) :
    s.losesNotice n ↔ s.notices.write + 1 = s.readIndex ∨ 44 < s.path.queue.length := by
  have hadmits : s.admits = true := admits_iff.mpr ⟨h.1, by rw [hop]; decide⟩
  have hentries : newEntries s.path.queue (noticeWrites n s.notices.write) = 4 := by
    have hall := (noticeWrites_new (n := n) h).1
    rw [newEntries, List.filter_eq_self.mpr fun w hw => by rw [hall w hw]; rfl, noticeWrites_eq, List.length_map,
      List.length_range]
  have hfree : s.freePlaces < 4 ↔ 44 < s.path.queue.length := by
    simp only [State.freePlaces, Config.queuePlaces]
    omega
  rw [State.losesNotice, hadmits, hentries, hfree]
  simp

theorem placeNotice_placed (h : ringReady s) (hop : s.control.op = .run) : noticePlaced s (s.placeNotice n) n := by
  unfold noticePlaced
  by_cases hlost : s.losesNotice n
  · rw [if_pos ((losesNotice_iff h hop).mp hlost), placeNotice_lost hlost]
    exact ⟨rfl, rfl⟩
  · rw [if_neg (fun hl => hlost ((losesNotice_iff h hop).mpr hl)), placeNotice_ring hlost, State.ringed]
    obtain ⟨hnew, hdistinct⟩ := noticeWrites_new (n := n) h
    dsimp only
    rw [foldl_addWrite_new hnew hdistinct]
    refine ⟨rfl, noticeShows_words n, ?_⟩
    rw [noticeWrites_eq, List.map_map]
    rfl

end

/-- R183: a notice in the ring touches the notice unit and the memory path. -/
theorem placeNotice_shape (s : State) (n : Notice) :
    s.placeNotice n = { s with notices := (s.placeNotice n).notices, path := (s.placeNotice n).path } := by
  have hfold (ws : List KeptWrite) (u : State) :
      ∃ x y, ws.foldl (fun t w => t.addWrite w.offset w.data .notice) u = { u with notices := x, path := y } := by
    induction ws generalizing u with
    | nil => exact ⟨u.notices, u.path, rfl⟩
    | cons w ws ih =>
      obtain ⟨x, y, h⟩ := ih (u.addWrite w.offset w.data .notice)
      exact ⟨x, y, h⟩
  by_cases hlost : s.losesNotice n
  · rw [placeNotice_lost hlost]
  · rw [placeNotice_ring hlost, State.ringed]
    obtain ⟨x, y, h⟩ := hfold (noticeWrites n s.notices.write) s
    dsimp only
    rw [h]

/-- R160, R183: a raised notice touches the notice unit, the memory path and the parked list. -/
theorem raise_shape (s : State) (n : Notice) : s.raise n =
    { s with notices := (s.raise n).notices, path := (s.raise n).path, control := (s.raise n).control } := by
  unfold State.raise
  split
  · rfl
  · have h := placeNotice_shape s n
    rw [h]
  all_goals rfl

/-- R160, R183: what becomes of a notice raised in LOADING or RUN. -/
theorem raise_taken {s : State} (n : Notice) (hop : s.control.op = .loading ∨ s.control.op = .run)
    (h : s.control.op = .run → ringReady s) : noticeTaken s (s.raise n) n := by
  unfold State.raise
  obtain hload | hrun := hop
  · rw [hload]
    refine ⟨fun h => absurd (hload.symm.trans h) (by decide), fun _ => ⟨rfl, rfl, ?_⟩⟩
    dsimp only [Control.park]
    split
    · next hroom => exact (if_pos hroom).symm
    · next hroom => exact (if_neg hroom).symm
  · rw [hrun]
    refine ⟨fun _ => ⟨?_, placeNotice_placed (h hrun) hrun⟩, fun h => absurd (hrun.symm.trans h) (by decide)⟩
    dsimp only
    rw [placeNotice_shape]

/-! ### The read index (R184, R185) -/

/-- R175: a live word written and carried at once in LOADING or in RUN. -/
theorem exec_live {s : State} {w : HostWord} {c : Instr} {dt : Nat} (l : LiveWord)
    (hc : exec c s = .next ((s.elapse dt).writesSetting l.offset w)) (h : takesLiveWords s) (hen : w.enables ≠ 0) :
    exec c s = .next (((s.elapse dt).carryWrite (s.windowBase + l.offset) [w]).takeLive l
      (mergeBytes (s.liveCopy l) w) (w.enables == 15)) := by
  rw [hc, writesSetting_live l (takesLiveWords_elapse dt h) hen]
  rfl

theorem takeReadIndex_moved {s : State} {old : BitVec 7} (h : s.readIndex ≠ old) : s.takeReadIndex old =
    { s.clearLost with notices := { s.clearLost.notices with
      attention := if s.readIndex = s.notices.completed then false else s.notices.attention } } := by
  unfold State.takeReadIndex
  rw [if_neg h]
  rfl

theorem takeReadIndex_same {s : State} {old : BitVec 7} (h : s.readIndex = old) : s.takeReadIndex old =
    { s with notices := { s.notices with
      attention := if s.readIndex = s.notices.completed then false else s.notices.attention } } := by
  unfold State.takeReadIndex
  rw [if_pos h]

/-- Settles O44: the two rows of `takeReadIndex`. -/
theorem readIndexIsTaken : Obligations.ReadIndexIsTaken := by
  intro dt w s h hen hrange
  have hexec := exec_live (c := .noticeReadIndex dt w) .readIndex rfl h hen
  generalize hu : ((s.elapse dt).carryWrite (s.windowBase + LiveWord.readIndex.offset) [w]).setLive .readIndex
    (mergeBytes (s.liveCopy .readIndex) w) = u
  have hindex : u.readIndex = BitVec.ofNat 7 (bits (mergeBytes (s.liveCopy .readIndex) w) 0 16) := by
    rw [← hu, State.readIndex, setLive_liveCopy_same]
  have htake : exec (.noticeReadIndex dt w) s = .next (u.takeReadIndex s.readIndex) := by
    rw [hexec, ← hu]
    exact congrArg Host.Outcome.next (if_pos hrange)
  by_cases hmoved : u.readIndex = s.readIndex
  · have hafter : (u.takeReadIndex s.readIndex).readIndex = u.readIndex := by rw [takeReadIndex_same hmoved]; rfl
    refine ⟨_, htake, hafter.trans hindex, ?_⟩
    rw [hafter, if_pos hmoved, if_pos hmoved, takeReadIndex_same hmoved, ← hu]
    exact ⟨rfl, rfl, rfl, rfl, rfl, rfl, rfl, rfl, rfl⟩
  · have hafter : (u.takeReadIndex s.readIndex).readIndex = u.readIndex := by rw [takeReadIndex_moved hmoved]; rfl
    refine ⟨_, htake, hafter.trans hindex, ?_⟩
    rw [hafter, if_neg hmoved, if_neg hmoved, takeReadIndex_moved hmoved, ← hu]
    exact ⟨rfl, rfl, rfl, rfl, rfl, rfl, rfl, rfl, rfl⟩

/-! ### The limit loader (R105, R178, R179) -/

theorem limitsAllowed_iff (l : LimitSet) : l.valid = true ↔ limitsAllowed l := by
  unfold LimitSet.valid limitsAllowed
  simp only [allowed, Bool.and_eq_true, decide_eq_true_eq, List.mem_cons, List.not_mem_nil, or_false,
    forall_eq_or_imp, forall_eq]
  tauto

theorem deliverLimits_valid {s : State} {l : LimitSet} (h : limitsAllowed l) : s.deliverLimits l =
    { s with
      eval := { s.eval with limits := s.eval.limits.set s.snoop.loaderIndex.toNat l s.snoop.loaderIndex.isLt }
      snoop := { s.snoop with loaderIndex := s.snoop.loaderIndex + 1 } } := if_pos ((limitsAllowed_iff l).mpr h)

theorem deliverLimits_refused {s : State} {l : LimitSet} (h : ¬ limitsAllowed l) : s.deliverLimits l =
    s.raise (refusalNotice s .limitRefused 0 s.snoop.loaderIndex.toNat) :=
  if_neg fun hv => h ((limitsAllowed_iff l).mp hv)

theorem appendLimit_partial {s : State} (x : Int) (h : s.snoop.partialEntry.length < 5) : s.appendLimit x =
    { s with snoop := { s.snoop with partialEntry := s.snoop.partialEntry ++ [x] } } := by
  have hshort : limitSetOf (s.snoop.partialEntry ++ [x]) = none := by
    unfold limitSetOf
    split
    · next heq =>
      have := congrArg List.length heq
      simp only [List.length_append, List.length_cons, List.length_nil] at this
      omega
    · rfl
  unfold State.appendLimit
  rw [hshort]

theorem appendLimit_full {s : State} (x : Int) {tg lw la hw ow : Int} (h : s.snoop.partialEntry = [tg, lw, la, hw, ow]) :
    s.appendLimit x = { s with snoop := { s.snoop with partialEntry := [] } }.deliverLimits
      { target := tg, lowWarn := lw, lowAlarm := la, highWarn := hw, hotWarn := ow, hotAlarm := x, loaded := true } := by
  unfold State.appendLimit
  rw [h]
  rfl

/-- Settles O46: the index, a value short of six, and the sixth of a valid and of an invalid entry. -/
theorem limitLoaderGathersSets : Obligations.LimitLoaderGathersSets := by
  refine ⟨?index, ?data⟩
  case index =>
    intro dt w s h hen hrange
    have hexec := exec_live (c := .limitLoaderIndex dt w) .loaderIndex rfl h hen
    have htake := hexec.trans (congrArg Host.Outcome.next (if_pos hrange))
    exact ⟨_, htake, rfl, rfl, rfl, rfl, rfl, rfl, rfl, rfl⟩
  case data =>
    intro dt w s h hen x
    have hexec := exec_live (c := .limitLoaderData dt w) .loaderData rfl h hen
    generalize hu : ((s.elapse dt).carryWrite (s.windowBase + LiveWord.loaderData.offset) [w]).setLive .loaderData
      (mergeBytes (s.liveCopy .loaderData) w) = u
    have htake : exec (.limitLoaderData dt w) s = .next (u.appendLimit x) := by
      rw [hexec, ← hu]
      rfl
    refine ⟨fun hshort => ?_, ?_⟩
    · have hu5 : u.snoop.partialEntry.length < 5 := by rw [← hu]; exact hshort
      rw [appendLimit_partial x hu5, ← hu] at htake
      exact ⟨_, htake, rfl, rfl, rfl, rfl, rfl⟩
    · intro tg lw la hw ow hfive l hready
      have hu5 : u.snoop.partialEntry = [tg, lw, la, hw, ow] := by rw [← hu]; exact hfive
      rw [appendLimit_full x hu5] at htake
      have hcopy : u.liveCopy .loaderData = mergeBytes (s.liveCopy .loaderData) w := by
        rw [← hu]
        exact setLive_liveCopy_same _ _ _
      by_cases hl : limitsAllowed l
      · rw [deliverLimits_valid hl] at htake
        subst hu
        exact ⟨_, htake, rfl, fun _ => ⟨Vector.getElem_set_self s.snoop.loaderIndex.isLt, rfl, rfl, rfl⟩,
          fun hn => absurd hl hn, fun i hi => Vector.getElem_set_ne s.snoop.loaderIndex.isLt i.isLt (Ne.symm hi), rfl, hcopy,
          rfl, rfl, rfl, rfl⟩
      · have hread : u.readIndex = s.readIndex := by
          rw [← hu]
          exact congrArg (fun v : Word => BitVec.ofNat 7 (bits v 0 16))
            (Vector.getElem_set_ne (by decide) (by decide) (by decide))
        generalize hv : ({ u with snoop := { u.snoop with partialEntry := [] } } : State) = v at htake
        have hsame : v.notices = s.notices ∧ v.path = s.path ∧ v.control = s.control ∧ v.readIndex = s.readIndex := by
          rw [← hv, ← hu]
          rw [← hu] at hread
          exact ⟨rfl, rfl, rfl, hread⟩
        obtain ⟨hnotices, hpath, hcontrol, hvread⟩ := hsame
        have hready' : v.control.op = .run → ringReady v := by
          rw [ringReady, hcontrol, hpath, hnotices]
          exact hready
        have htaken := raise_taken (s := v) (refusalNotice v .limitRefused 0 v.snoop.loaderIndex.toNat)
          (by rw [hcontrol]; exact h.1) hready'
        rw [deliverLimits_refused hl, raise_shape] at htake
        unfold noticeTaken noticePlaced at htaken
        rw [hnotices, hpath, hcontrol, hvread] at htaken
        have hnotice : refusalNotice v .limitRefused 0 v.snoop.loaderIndex.toNat =
            refusalNotice s .limitRefused 0 s.snoop.loaderIndex.toNat := by rw [← hv, ← hu]; rfl
        rw [hnotice] at htaken htake
        subst hv hu
        exact ⟨_, htake, rfl, fun hy => absurd hy hl, fun _ => ⟨rfl, rfl, htaken⟩, fun i _ => rfl, rfl, hcopy, rfl, rfl, rfl,
          rfl⟩

/-! ### Settings that are refused (R175, R176) -/

theorem layoutOk_iff (v : Word) : layoutOk v = true ↔ (∀ a : Axle, bits v (4 * a.val) 2 ≠ 3) ∧ bits v 24 2 ≤ 2 := by
  unfold layoutOk spareCount
  rw [Bool.and_eq_true, List.all_eq_true, decide_eq_true_iff]
  have hmem (a : Axle) : a ∈ axles := by revert a; decide
  exact and_congr_left fun _ => ⟨fun h a => bne_iff_ne.mp (h a (hmem a)), fun h a _ => bne_iff_ne.mpr (h a)⟩

theorem inRange_iff (v lo hi : Nat) : inRange v lo hi = true ↔ lo ≤ v ∧ v ≤ hi := by simp [inRange]

theorem rangeWordOk_iff (v : Word) (lo hi : Nat) : rangeWordOk v lo hi = true ↔
    lo ≤ bits v 0 16 ∧ bits v 0 16 < bits v 16 16 ∧ bits v 16 16 ≤ hi := by
  rw [rangeWordOk, Bool.and_eq_true, Bool.and_eq_true, inRange_iff, inRange_iff, decide_eq_true_iff]
  omega

/-- 11.2: the owners' tests are the allowed values. -/
theorem settingOk_iff (w : SettingWord) (v : Word) (depth : Nat) : settingOk w v depth = true ↔ allowedWord w v depth := by
  cases w
  case axleLayout => exact layoutOk_iff v
  case rollingRange => exact rangeWordOk_iff v 2 600
  case parkedRange => exact rangeWordOk_iff v 30 4000
  all_goals simp [settingOk, allowedWord, inRange_iff, and_assoc]

theorem settingWordAt_offset (w : SettingWord) : settingWordAt w.offset = some w := by cases w <;> decide

theorem settingOffset_lt (w : SettingWord) : w.offset < 0x400 ∧ w.offset % 4 = 0 := by cases w <;> decide

theorem takeWord_setting {s : State} {h : HostWord} (w : SettingWord) (hop : s.control.op.takesWrites = true)
    (hen : h.enables ≠ 0) : s.takeWord w.offset h = s.takeHostSetting w h := by
  have htaken : ¬(s.control.op.takesWrites = false ∨ h.enables = 0) := by
    rw [hop]
    simpa using hen
  rw [State.takeWord, if_neg htaken, settingWordAt_offset]

/-- R175: a settings word written and carried at once in LOADING or in RUN. -/
theorem exec_setting {s : State} {h : HostWord} (dt : Nat) (w : SettingWord) (hs : takesLiveWords s) (hen : h.enables ≠ 0) :
    exec (settingWrite dt w.offset h) s =
      .next (((s.elapse dt).carryWrite (s.windowBase + w.offset) [h]).takeHostSetting w h) := by
  obtain ⟨hop, hfree⟩ := hs
  obtain ⟨hlt, haligned⟩ := settingOffset_lt w
  have hoffset : (BitVec.ofNat 10 w.offset).toNat = w.offset := by
    rw [BitVec.toNat_ofNat]
    exact Nat.mod_eq_of_lt hlt
  have hexec : exec (settingWrite dt w.offset h) s = .next ((s.elapse dt).hostWrites
      ((s.elapse dt).windowBase + (BitVec.ofNat 10 w.offset).toNat) (.single h)) := rfl
  rw [hexec, hoffset, hostWrites_setting (memoryFree_elapse dt hfree) _ h hlt haligned, takeWord_setting w ?_ hen]
  · rfl
  · exact takesWrites_of_loading_or_run hop

theorem eq_mergeBytes {old v : Word} {h : HostWord} (hm : mergedInto old h v) : v = mergeBytes old h :=
  eq_of_bytes fun i => (hm i).trans (mergeBytes_byte old h i).symm

theorem completeLoad_stays {s : State} (h : s.control.op = .loading → ∃ x, s.isLoaded x = false) : s.completeLoad = s := by
  refine if_neg fun hall => ?_
  obtain ⟨hop, hloaded⟩ := hall
  obtain ⟨x, hx⟩ := h hop
  have hmem : x ∈ settingWords := by cases x <;> decide
  rw [List.all_eq_true.mp hloaded x hmem] at hx
  cases hx

theorem isLoaded_markLoaded_same (s : State) (w : SettingWord) : (s.markLoaded w).isLoaded w = true :=
  Vector.getElem_set_self w.index.isLt

theorem isLoaded_markLoaded_other (s : State) {w x : SettingWord} (h : x ≠ w) : (s.markLoaded w).isLoaded x = s.isLoaded x := by
  have hindex : w.index.val ≠ x.index.val := fun e => h (by cases w <;> cases x <;> first | rfl | cases e)
  exact Vector.getElem_set_ne w.index.isLt x.index.isLt hindex

/-- R155, R156: what follows the taking or the refusal of a host write of a settings word. -/
theorem takeHostSetting_marks {s u : State} {w : SettingWord} {h : HostWord}
    (hu : s.takeSetting w (mergeBytes (s.copy w) h) = u)
    (hstay : h.enables = 15 → u.control.op = .loading → ∃ x, x ≠ w ∧ u.isLoaded x = false) :
    s.takeHostSetting w h = if h.enables = 15 then u.markLoaded w else u := by
  unfold State.takeHostSetting
  dsimp only
  rw [hu]
  split
  · next hen =>
    refine completeLoad_stays fun hop => ?_
    obtain ⟨x, hx, hload⟩ := hstay hen hop
    exact ⟨x, (isLoaded_markLoaded_other u hx).trans hload⟩
  · rfl

/-- R176: the notice of a refused setting is raised in the state that has taken the write. -/
theorem refuseSetting_eq (s : State) (o : Nat) (m : Word) : s.refuseSetting o m =
    { s with snoop := { s.snoop with refusedOffset := some o } }.raise (refusalNotice s .settingRefused m o) := rfl

/-- Settles O40: a refusal raises its notice (`raise_taken`) and leaves every copy; the tests are `settingOk_iff`. -/
theorem settingIsRefused : Obligations.SettingIsRefused := by
  refine ⟨?settings, ?live, fun w v depth => settingOk_iff w v depth⟩
  case settings =>
    intro dt w h v s hs hen hm hbad hstay hready
    obtain rfl := eq_mergeBytes hm
    generalize hu : ({ (s.elapse dt).carryWrite (s.windowBase + w.offset) [h] with
      snoop := { s.snoop with refusedOffset := some w.offset } } : State) = u
    generalize hn : refusalNotice s .settingRefused (mergeBytes (s.copy w) h) w.offset = n
    have hrefuse : ((s.elapse dt).carryWrite (s.windowBase + w.offset) [h]).takeSetting w
        (mergeBytes (s.copy w) h) = u.raise n := by
      rw [← hu, ← hn]
      exact if_neg fun hok => hbad ((settingOk_iff _ _ _).mp hok)
    have hshape := raise_shape u n
    have htaken : noticeTaken s (u.raise n) n := by
      have htaken := raise_taken (s := u) n (by rw [← hu]; exact hs.1) (by rw [← hu]; exact hready)
      rw [← hu] at htaken ⊢
      exact htaken
    have hloaded : (u.raise n).control.loaded = s.control.loaded ∧ (u.raise n).control.op = s.control.op := by
      have hkept : (u.raise n).base = u.base := by simp
      rw [← hu] at hkept ⊢
      exact ⟨(congrArg Base.loaded hkept :), (congrArg Base.op hkept :)⟩
    obtain ⟨hflags, hop⟩ := hloaded
    have hisLoaded (x : SettingWord) : (u.raise n).isLoaded x = s.isLoaded x :=
      congrArg (fun f : Vector Bool 35 => f.get x.index) hflags
    have hexec := exec_setting dt w hs hen
    rw [takeHostSetting_marks hrefuse fun h15 hload => ?_] at hexec
    · refine ⟨_, hexec, ?_⟩
      split
      · next h15 =>
        have hmark : (h.enables == 15) = true := beq_iff_eq.mpr h15
        refine ⟨?_, htaken, (isLoaded_markLoaded_same _ w).trans (by rw [hmark, Bool.or_true]),
          fun x hx => (isLoaded_markLoaded_other _ hx).trans (hisLoaded x), ?_, ?_⟩
        · rw [hshape, ← hu]; rfl
        · rw [hshape, ← hu]; rfl
        · rw [hshape, ← hu]; rfl
      · next h15 =>
        have hmark : (h.enables == 15) = false := beq_eq_false_iff_ne.mpr h15
        refine ⟨?_, htaken, (hisLoaded w).trans (by rw [hmark, Bool.or_false]), fun x _ => hisLoaded x, ?_, ?_⟩
        · rw [hshape, ← hu]
        · rw [hshape, ← hu]; rfl
        · rw [hshape, ← hu]; rfl
    · obtain ⟨x, hx, hclear⟩ := hstay (hop ▸ hload) h15
      exact ⟨x, hx, (hisLoaded x).trans hclear⟩
  case live =>
    intro dt h v w top c s hmem hs hen hm hbad hready
    obtain rfl := eq_mergeBytes hm
    have hexec : exec c s = .next (({ (s.elapse dt).carryWrite (s.windowBase + w.offset) [h] with
        snoop := { s.snoop with refusedOffset := some w.offset } } : State).raise
        (refusalNotice s .settingRefused (mergeBytes (s.liveCopy w) h) w.offset)) := by
      simp only [List.mem_cons, Prod.mk.injEq, List.not_mem_nil, or_false] at hmem
      obtain ⟨rfl, rfl, rfl⟩ | ⟨rfl, rfl, rfl⟩ := hmem
      · exact (exec_live (c := .noticeReadIndex dt h) .readIndex rfl hs hen).trans
          (congrArg Host.Outcome.next (if_neg (Nat.not_le.mpr hbad)))
      · exact (exec_live (c := .limitLoaderIndex dt h) .loaderIndex rfl hs hen).trans
          (congrArg Host.Outcome.next (if_neg (Nat.not_le.mpr hbad)))
    generalize refusalNotice s .settingRefused (mergeBytes (s.liveCopy w) h) w.offset = n at *
    generalize hu : ({ (s.elapse dt).carryWrite (s.windowBase + w.offset) [h] with
      snoop := { s.snoop with refusedOffset := some w.offset } } : State) = u at *
    have hshape := raise_shape u n
    have htaken : noticeTaken s (u.raise n) n := by
      have htaken := raise_taken (s := u) n (by rw [← hu]; exact hs.1) (by rw [← hu]; exact hready)
      rw [← hu] at htaken ⊢
      exact htaken
    have hflags : (u.raise n).control.loaded = s.control.loaded := by
      have hkept : (u.raise n).base = u.base := by simp
      rw [← hu] at hkept ⊢
      exact (congrArg Base.loaded hkept :)
    refine ⟨_, hexec, ?_, htaken, hflags, ?_, ?_⟩
    · rw [hshape, ← hu]
    · rw [hshape, ← hu]; rfl
    · rw [hshape, ← hu]; rfl

end Sys2Proof.Machine
end

section
/-! A move of an alert record (R118 to R122, R159), and the arrival tracker's deadlines (R96 to R98): the expiry of a deadline,
which raises SILENT and may queue a LOCATE. -/

namespace Sys2Proof.Machine
open Sys2Proof.Claim

/-! ### A set alert record -/

theorem posAt_setAlert_alerts (s : State) (p q : Pos) (k : AlertKind) (r : AlertRec) (a : Bool) :
    { (s.setAlert p k r a).posAt q with alerts := (s.posAt q).alerts } = s.posAt q := by
  rw [posAt_setAlert]
  split
  · next hq => rw [hq]
  · rfl

/-- R159: an alarm asserts the wake request in WATCH and DEEP WATCH. -/
theorem setAlert_control (s : State) (p : Pos) (k : AlertKind) (r : AlertRec) (a : Bool) :
    (s.setAlert p k r a).control = { s.control with
      wake := s.control.wake || (a && (s.control.op == .watch || s.control.op == .deepWatch)) } := rfl

theorem setAlert_control_quiet (s : State) (p : Pos) (k : AlertKind) (r : AlertRec) :
    (s.setAlert p k r false).control = s.control := by
  rw [setAlert_control, Bool.false_and, Bool.or_false]

theorem setAlert_outputs (s : State) (p : Pos) (k : AlertKind) (r : AlertRec) (a : Bool) :
    lampOk (s.setAlert p k r a) ∧ escalationOk (s.setAlert p k r a) := (outputsShow_iff _).mpr (refreshOutputs_show _ a)

/-! ### The notice of a move (R160, R183) -/

/-- R160: a notice parked by a control unit that differs in the wake request only. -/
theorem park_besides_wake {c d : Control} {w : Bool} (n : Notice) (h : { d with wake := w } = c) : { d.park n with wake := w } =
    if c.parked.length < 16 then { c with parked := c.parked ++ [n] }
    else { c with parked := c.parked.tail ++ [n], parkedLost := true, parkedWritten := false } := by
  subst h
  by_cases hroom : d.parked.length < 16
  · simp only [Control.park, Config.parkedPlaces, hroom, if_true]
  · simp only [Control.park, Config.parkedPlaces, hroom, if_false]

/-- A notice raised in a state that has the notice unit and the memory path of `s`, and its control but for the wake request. -/
theorem alertNoticed_raise {s u : State} (n : Notice) (hnotices : u.notices = s.notices) (hpath : u.path = s.path)
    (hcontrol : { u.control with wake := s.control.wake } = s.control) (hread : u.readIndex = s.readIndex) :
    alertNoticed s (u.raise n) n := by
  have hop : u.control.op = s.control.op := (congrArg Control.op hcontrol :)
  have hup : u.control.refHup = s.control.refHup := (congrArg Control.refHup hcontrol :)
  refine ⟨fun hrun => ?_, fun hother => ?_⟩
  · have hu : u.control.op = .run := hop.trans hrun
    have hplace : u.raise n = u.placeNotice n := by
      unfold State.raise
      rw [hu]
    rw [hplace, placeNotice_shape]
    refine ⟨hcontrol, fun hready => ?_⟩
    have hplaced := placeNotice_placed (s := u) (n := n) (by rw [ringReady, hup, hpath, hnotices]; exact hready) hu
    unfold noticePlaced at hplaced ⊢
    rw [hnotices, hpath, hread] at hplaced
    exact hplaced
  · have hpark : u.raise n = { u with control := u.control.park n } := by
      unfold State.raise
      rw [hop]
      obtain h | h | h := hother <;> rw [h]
    rw [hpark]
    exact ⟨hnotices, hpath, park_besides_wake n hcontrol⟩

/-- The escalation state is read off the timer, the records and the settings. -/
theorem outputs_of_same {s t : State} (he : t.eval = s.eval) (hp : t.positions = s.positions) (hc : t.snoop = s.snoop)
    (h : lampOk s ∧ escalationOk s) : lampOk t ∧ escalationOk t := by
  rw [outputsShow_iff] at h ⊢
  have harmed : t.escalationArmed = s.escalationArmed := by
    unfold State.escalationArmed State.setting State.copy
    rw [hc]
  rw [he, hp, harmed]
  exact h

section
variable (s : State) (p : Pos) (k : AlertKind)

/-- R118, R119: a move without a notice. -/
theorem alertMoved_quiet (r : AlertRec) (v : Int) : alertMoved s (s.setAlert p k r false) p k (r, .none) v := by
  obtain ⟨hlamp, hesc⟩ := setAlert_outputs s p k r false
  have hcontrol := setAlert_control_quiet s p k r
  refine ⟨?_, fun q j hqj => ?_, fun q => posAt_setAlert_alerts s p q k r false, hlamp, hesc, ?_, fun _ => ⟨rfl, rfl, ?_⟩,
    nofun, nofun, nofun, hostSideSame_of_base (by simp), rfl, rfl, rfl⟩
  · rw [alertAt_setAlert, if_pos ⟨rfl, rfl⟩]
    simp
  · rw [alertAt_setAlert, if_neg (by tauto)]
  · rw [hcontrol]
    simp
  · rw [hcontrol]

/-- R120, R121, R159: a move with a notice: the record, the outputs and the wake request after it. -/
theorem alertNotice_moved (r : AlertRec) (a : Bool) (n : NoticeKind) (l : Level) (v : Int) :
    let t := (s.setAlert p k r a).alertNotice n p k l v
    t.alertAt p k = r ∧ (∀ q j, (q ≠ p ∨ j ≠ k) → t.alertAt q j = s.alertAt q j) ∧
      (∀ q, { t.posAt q with alerts := (s.posAt q).alerts } = s.posAt q) ∧ lampOk t ∧ escalationOk t ∧
      t.control.wake = (s.control.wake || (a && (s.control.op == .watch || s.control.op == .deepWatch))) ∧
      alertNoticed s t (alertNoticeOf s n p k l v) ∧
      hostSideSame s t ∧ t.candidates = s.candidates ∧ t.trigger = s.trigger ∧ t.intake = s.intake := by
  intro t
  have htables : t.tables = s.tables := (alertNotice_tables _ n p k l v).trans (setAlert_tables s p k r a)
  have hbase : t.base = s.base := by simp [t]
  obtain ⟨hlamp, hesc⟩ := outputs_of_same (t := t) (raise_eval _ _) (raise_positions _ _)
    (congrArg Base.snoop hbase) (setAlert_outputs s p k r a)
  have hid : ((s.setAlert p k r a).posAt p).id = (s.posAt p).id := by
    rw [posAt_setAlert, if_pos rfl]
  have hnotice : t = (s.setAlert p k r a).raise (alertNoticeOf s n p k l v) := by
    rw [alertNoticeOf, ← hid]
    rfl
  refine ⟨?_, fun q j hqj => ?_, fun q => ?_, hlamp, hesc, raise_wake _ _, ?_, hostSideSame_of_base hbase,
    congrArg Tables.candidates htables, congrArg Tables.trigger htables, congrArg Tables.intake htables⟩
  · rw [alertAt_alertNotice, alertAt_setAlert, if_pos ⟨rfl, rfl⟩]
  · rw [alertAt_alertNotice, alertAt_setAlert, if_neg (by tauto)]
  · rw [posAt_alertNotice]
    exact posAt_setAlert_alerts s p q k r a
  · rw [hnotice]
    exact alertNoticed_raise _ rfl rfl rfl rfl

theorem wake_iff (w a : Bool) (op : OpState) :
    (w || (a && (op == .watch || op == .deepWatch))) = true ↔ w = true ∨ (a = true ∧ (op = .watch ∨ op = .deepWatch)) := by
  simp

/-- R118 to R122, R159: what a move does. -/
theorem alertMoved_applyMove (m : AlertRec × AlertEvent) (v : Int) : alertMoved s (s.applyMove p k m v) p k m v := by
  obtain ⟨r, event⟩ := m
  cases event with
  | none => exact alertMoved_quiet s p k r v
  | raised =>
    obtain ⟨hrec, hother, hpos, hlamp, hesc, hwake, hnotice, hhost, hcand, htrig, hintake⟩ :=
      alertNotice_moved s p k { r with stamp := s.sweep.count, value := v } (r.level == .alarm) .alertRaised r.level v
    refine ⟨hrec, hother, hpos, hlamp, hesc, ?_, nofun, fun _ => hnotice, nofun, nofun, hhost, hcand, htrig, hintake⟩
    exact (Bool.eq_iff_iff.mp hwake).trans ((wake_iff _ _ _).trans (by simp))
  | escalated =>
    obtain ⟨hrec, hother, hpos, hlamp, hesc, hwake, hnotice, hhost, hcand, htrig, hintake⟩ :=
      alertNotice_moved s p k { r with stamp := s.sweep.count, value := v } true .alertEscalated .alarm v
    refine ⟨hrec, hother, hpos, hlamp, hesc, ?_, nofun, nofun, fun _ => hnotice, nofun, hhost, hcand, htrig, hintake⟩
    exact (Bool.eq_iff_iff.mp hwake).trans ((wake_iff _ _ _).trans (by simp))
  | cleared =>
    obtain ⟨hrec, hother, hpos, hlamp, hesc, hwake, hnotice, hhost, hcand, htrig, hintake⟩ :=
      alertNotice_moved s p k r false .alertCleared (s.alertAt p k).level (s.alertAt p k).value
    refine ⟨hrec, hother, hpos, hlamp, hesc, ?_, nofun, nofun, nofun, fun _ => hnotice, hhost, hcand, htrig, hintake⟩
    exact (Bool.eq_iff_iff.mp hwake).trans ((wake_iff _ _ _).trans (by simp))

end

/-- R118 to R122: the record after a move. -/
theorem alertAt_applyMove_same (s : State) (p : Pos) (k : AlertKind) (m : AlertRec × AlertEvent) (v : Int) :
    (s.applyMove p k m v).alertAt p k =
      if m.2 = .raised ∨ m.2 = .escalated then { m.1 with stamp := s.sweep.count, value := v } else m.1 := by
  obtain ⟨hrec, -⟩ := alertMoved_applyMove s p k m v
  exact hrec

theorem alertAt_applyMove_other (s : State) {p q : Pos} {k j : AlertKind} (m : AlertRec × AlertEvent) (v : Int)
    (h : q ≠ p ∨ j ≠ k) : (s.applyMove p k m v).alertAt q j = s.alertAt q j := by
  obtain ⟨-, hother, -⟩ := alertMoved_applyMove s p k m v
  exact hother q j h

theorem posAt_applyMove (s : State) (p q : Pos) (k : AlertKind) (m : AlertRec × AlertEvent) (v : Int) :
    (s.applyMove p k m v).posAt q = { s.posAt q with alerts := ((s.applyMove p k m v).posAt q).alerts } := by
  obtain ⟨-, -, hpos, -⟩ := alertMoved_applyMove s p k m v
  rw [← hpos q]

/-- R160: in RUN a raised notice is no matter of the control unit. -/
theorem raise_control_run {s : State} (n : Notice) (h : s.control.op = .run) : (s.raise n).control = s.control := by
  have hplace : s.raise n = s.placeNotice n := by
    unfold State.raise
    rw [h]
  rw [hplace, placeNotice_shape]

theorem setAlert_control_run {s : State} (p : Pos) (k : AlertKind) (r : AlertRec) (a : Bool) (h : s.control.op = .run) :
    (s.setAlert p k r a).control = s.control := by
  have hwake : (a && (s.control.op == .watch || s.control.op == .deepWatch)) = false := by
    rw [h]
    exact Bool.and_false a
  rw [setAlert_control, hwake, Bool.or_false]

theorem applyMove_control_run {s : State} (p : Pos) (k : AlertKind) (m : AlertRec × AlertEvent) (v : Int)
    (h : s.control.op = .run) : (s.applyMove p k m v).control = s.control := by
  have hset (r : AlertRec) (a : Bool) (n : Notice) : ((s.setAlert p k r a).raise n).control = s.control := by
    have hc := setAlert_control_run p k r a h
    rw [raise_control_run n (by rw [hc]; exact h), hc]
  unfold State.applyMove
  split
  · exact setAlert_control_run p k _ _ h
  all_goals exact hset _ _ _

/-! ### SILENT (R98, R99, R116) -/

/-- R98, R116: SILENT begins: the flag, and a CLEAR record becomes ACTIVE. -/
theorem beginSilent_clear {s : State} {p : Pos} (h : (s.alertAt p .silent).state = .clear) :
    s.beginSilent p = (s.modPos p (fun x => { x with silent := true })).applyMove p .silent
      ((s.alertAt p .silent).raisedAt .warn, .raised) ((s.posAt p).interval.getD 0) := by
  have halert : (s.modPos p (fun x => { x with silent := true })).alertAt p .silent = s.alertAt p .silent :=
    alertAt_modPos_same rfl p .silent
  unfold State.beginSilent
  dsimp only
  rw [halert, if_pos h, posAt_modPos_same]

theorem beginSilent_standing {s : State} {p : Pos} (h : (s.alertAt p .silent).state ≠ .clear) :
    s.beginSilent p = s.modPos p (fun x => { x with silent := true }) := by
  have halert : (s.modPos p (fun x => { x with silent := true })).alertAt p .silent = s.alertAt p .silent :=
    alertAt_modPos_same rfl p .silent
  unfold State.beginSilent
  dsimp only
  rw [halert, if_neg h]

theorem posAt_beginSilent_same (s : State) (p : Pos) : (s.beginSilent p).posAt p =
    { s.posAt p with silent := true, alerts := ((s.beginSilent p).posAt p).alerts } := by
  by_cases h : (s.alertAt p .silent).state = .clear
  · rw [beginSilent_clear h, posAt_applyMove, posAt_modPos_same]
  · rw [beginSilent_standing h, posAt_modPos_same]

theorem posAt_beginSilent_other (s : State) {p q : Pos} (h : q ≠ p) : (s.beginSilent p).posAt q = s.posAt q := by
  by_cases hc : (s.alertAt p .silent).state = .clear
  · rw [beginSilent_clear hc, posAt_applyMove_other _ _ _ _ h, posAt_modPos_other _ _ _ _ h]
  · rw [beginSilent_standing hc, posAt_modPos_other _ _ _ _ h]

theorem alertAt_beginSilent (s : State) (p : Pos) {k : AlertKind} (h : k ≠ .silent) :
    (s.beginSilent p).alertAt p k = s.alertAt p k := by
  by_cases hc : (s.alertAt p .silent).state = .clear
  · rw [beginSilent_clear hc, alertAt_applyMove_other _ _ _ (.inr h)]
    exact alertAt_modPos_same rfl p k
  · rw [beginSilent_standing hc]
    exact alertAt_modPos_same rfl p k

theorem beginSilent_control_run {s : State} (p : Pos) (h : s.control.op = .run) :
    (s.beginSilent p).control = s.control := by
  by_cases hc : (s.alertAt p .silent).state = .clear
  · rw [beginSilent_clear hc]
    exact applyMove_control_run (s := s.modPos p (fun x => { x with silent := true })) p _ _ _ h
  · rw [beginSilent_standing hc]
    rfl

/-! ### The LOCATE of a silent position (R98) -/

/-- R98: what an expiry does to the trigger queue. -/
theorem locateSilent_eq (s : State) (p : Pos) :
    ∃ q, s.locateSilent p = { s with trigger := { s.trigger with queue := q } } := by
  unfold State.locateSilent
  split
  · split
    · exact ⟨_, rfl⟩
    · exact ⟨s.trigger.queue, rfl⟩
  · exact ⟨s.trigger.queue, rfl⟩

theorem persistentOn_iff (s : State) (l : Lane) :
    s.persistentOn l = true ↔ ∃ e ∈ s.candidates, e.persistent = true ∧ e.strongest = l := by
  simp [State.persistentOn]

/-- R62: a LOCATE with tag 0 taken by the queue. -/
theorem takeRequest_locate (q : List Request) (c : Coil) :
    takeRequest q { coil := c, purpose := .locate, attempts := 0, tag := 0 } = withLocate q c := by
  have hmerge (x : Request) : x.merge { coil := c, purpose := .locate, attempts := 0, tag := 0 } =
      if x.purpose = .attach ∨ x.purpose = .recheck then { x with purpose := .locate, tag := 0 } else x := by
    unfold Request.merge
    cases hp : x.purpose <;> simp [Purpose.rank]
  unfold takeRequest withLocate
  split
  · refine List.map_congr_left fun x _ => ?_
    by_cases hc : x.coil = c
    · simp only [hc, if_true, true_and, hmerge]
    · simp only [hc, if_false, false_and]
  · rfl

section
variable {s : State} {p : Pos}

theorem locateSilent_queues {c : Coil} (hc : sideCoil p = some c) (hrun : s.control.op = .run) (ha : s.available c = true)
    (he : ∃ e ∈ s.candidates, e.persistent = true ∧ (s.posAt p).homeLane = some e.strongest) :
    s.locateSilent p = { s with trigger := { s.trigger with queue := withLocate s.trigger.queue c } } := by
  obtain ⟨e, hmem, hpersist, hlane⟩ := he
  have hon : s.persistentOn e.strongest = true := (persistentOn_iff s _).mpr ⟨e, hmem, hpersist, rfl⟩
  unfold State.locateSilent
  rw [hlane, hc]
  dsimp only
  rw [if_pos hon, State.offer, if_pos ⟨hrun, ha⟩, takeRequest_locate]

theorem locateSilent_stays (h : sideCoil p = none ∨ (∃ c, sideCoil p = some c ∧ s.available c = false) ∨
    ∀ e ∈ s.candidates, e.persistent = true → (s.posAt p).homeLane ≠ some e.strongest) : s.locateSilent p = s := by
  unfold State.locateSilent
  split
  · next l c hl hc =>
    split
    · next hon =>
      obtain ⟨e, hmem, hpersist, hlane⟩ := (persistentOn_iff s l).mp hon
      obtain h | ⟨d, hd, ha⟩ | h := h
      · rw [hc] at h
        cases h
      · obtain rfl : c = d := Option.some.inj (hc.symm.trans hd)
        rw [State.offer, if_neg]
        rintro ⟨-, ha'⟩
        rw [ha] at ha'
        cases ha'
      · exact absurd (hlane ▸ hl) (h e hmem hpersist)
    · rfl
  · rfl

end

/-! ### The expiry of a deadline (R97) -/

/-- Two changes of one record are one. -/
theorem modPos_modPos (s : State) (p : Pos) (f g : PosRec → PosRec) :
    (s.modPos p f).modPos p g = s.modPos p fun r => g (f r) := by
  have hrec := posAt_modPos_same s p f
  unfold State.modPos at hrec ⊢
  rw [hrec]
  simp only [Vector.set_set]

/-- R97: a BOUND position whose deadline has gone. -/
def State.suspected (s : State) (p : Pos) : State := s.modPos p (fun r => { r with deadline := none, state := .suspect })

theorem expire_bound {s : State} {p : Pos} (h : (s.posAt p).state = .bound) :
    s.expire p = ((s.suspected p).beginSilent p).locateSilent p := by
  have htwice : ((s.modPos p (fun r => { r with deadline := none })).modPos p (fun r => { r with state := .suspect })) =
      s.suspected p := modPos_modPos s p _ _
  unfold State.expire
  dsimp only
  rw [posAt_modPos_same, if_pos h, htwice]

theorem expire_unbound {s : State} {p : Pos} (h : (s.posAt p).state ≠ .bound) :
    s.expire p = s.modPos p (fun r => { r with deadline := none }) := by
  unfold State.expire
  dsimp only
  rw [posAt_modPos_same, if_neg h]

theorem posAt_expire_other (s : State) {p q : Pos} (h : q ≠ p) : (s.expire p).posAt q = s.posAt q := by
  by_cases hb : (s.posAt p).state = .bound
  · obtain ⟨x, hx⟩ := locateSilent_eq ((s.suspected p).beginSilent p) p
    rw [expire_bound hb, hx]
    change ((s.suspected p).beginSilent p).posAt q = _
    rw [posAt_beginSilent_other _ h, State.suspected, posAt_modPos_other _ _ _ _ h]
  · rw [expire_unbound hb, posAt_modPos_other _ _ _ _ h]

/-- R97, R98: the record of a BOUND position whose deadline has expired. -/
theorem posAt_expire_bound {s : State} {p : Pos} (h : (s.posAt p).state = .bound) : (s.expire p).posAt p =
    { s.posAt p with
      deadline := none, state := .suspect, silent := true, alerts := ((s.expire p).posAt p).alerts } := by
  obtain ⟨x, hx⟩ := locateSilent_eq ((s.suspected p).beginSilent p) p
  have hbegin : (s.expire p).posAt p = ((s.suspected p).beginSilent p).posAt p := by
    rw [expire_bound h, hx]
    rfl
  rw [hbegin, posAt_beginSilent_same, State.suspected, posAt_modPos_same]

/-- R98: only the SILENT record moves. -/
theorem alertAt_expire (s : State) (p : Pos) {k : AlertKind} (h : k ≠ .silent) :
    (s.expire p).alertAt p k = s.alertAt p k := by
  by_cases hb : (s.posAt p).state = .bound
  · obtain ⟨x, hx⟩ := locateSilent_eq ((s.suspected p).beginSilent p) p
    rw [expire_bound hb, hx]
    change ((s.suspected p).beginSilent p).alertAt p k = _
    rw [alertAt_beginSilent _ _ h]
    exact alertAt_modPos_same rfl p k
  · rw [expire_unbound hb]
    exact alertAt_modPos_same rfl p k

/-- Settles O24: the rows of `expire`; the notice is that of `alertMoved_applyMove`, the LOCATE that of `locateSilent`. -/
theorem silenceDeadlineExpires : Obligations.SilenceDeadlineExpires := by
  intro dt p s hreached
  have hexec : exec (.silenceDeadlineExpiry dt p) s = .next ((s.elapse dt).expire p) :=
    congrArg Host.Outcome.next (if_pos hreached)
  refine ⟨fun hb => ?_, fun hb => ?_⟩
  · have hpos := posAt_expire_bound (s := s.elapse dt) hb
    have hbegin : ((s.elapse dt).suspected p).posAt p = { s.posAt p with deadline := none, state := .suspect } :=
      posAt_modPos_same s p (fun r => { r with deadline := none, state := .suspect })
    have hlane : ((((s.elapse dt).suspected p).beginSilent p).posAt p).homeLane = (s.posAt p).homeLane := by
      rw [posAt_beginSilent_same, hbegin]
    have htables := beginSilent_tables ((s.elapse dt).suspected p) p
    have hcand : (((s.elapse dt).suspected p).beginSilent p).candidates = s.candidates :=
      (congrArg Tables.candidates htables :)
    have htrig : (((s.elapse dt).suspected p).beginSilent p).trigger = s.trigger := (congrArg Tables.trigger htables :)
    have hbase : (((s.elapse dt).suspected p).beginSilent p).base = (s.elapse dt).base := by simp [State.suspected]
    have havail (c : Coil) : (((s.elapse dt).suspected p).beginSilent p).available c = s.available c := by
      have hsnoop := congrArg Base.snoop hbase
      have href := congrArg Base.refTrl hbase
      simp only [State.base] at hsnoop href
      simp only [State.available, State.layout, State.copy, hsnoop, href, elapse_snoop, elapse_control]
    have hop : (((s.elapse dt).suspected p).beginSilent p).control.op = s.control.op := (congrArg Base.op hbase :)
    obtain ⟨x, hx⟩ := locateSilent_eq (((s.elapse dt).suspected p).beginSilent p) p
    refine ⟨_, hexec, (congrArg PosRec.state hpos :), (congrArg PosRec.silent hpos :), (congrArg PosRec.deadline hpos :),
      (congrArg PosRec.id hpos :), (congrArg PosRec.sample hpos :), fun hclear => ?alert, fun c hc hrun ha he => ?queues,
      fun hnone => ?stays, fun q hq => posAt_expire_other _ hq, ?candidates, hostSideSame_of_base (s := s.elapse dt) (by simp)⟩
    case alert =>
      have hsilent : ((s.elapse dt).suspected p).alertAt p .silent = s.alertAt p .silent :=
        alertAt_modPos_same (s := s.elapse dt) rfl p .silent
      generalize hu : ((s.elapse dt).suspected p).modPos p (fun x => { x with silent := true }) = u
      have halert : u.alertAt p .silent = s.alertAt p .silent := by
        rw [← hu, ← hsilent]
        exact alertAt_modPos_same rfl p .silent
      have hmoved := alertMoved_applyMove u p .silent ((s.alertAt p .silent).raisedAt .warn, .raised)
        (((((s.elapse dt).suspected p).posAt p).interval.getD 0 : Nat) : Int)
      have hstep : ((s.elapse dt).suspected p).beginSilent p = u.applyMove p .silent
          ((s.alertAt p .silent).raisedAt .warn, .raised) ((((s.elapse dt).suspected p).posAt p).interval.getD 0) := by
        rw [beginSilent_clear (by rw [hsilent]; exact hclear), hsilent, hu]
      obtain ⟨hrec, -, -, -, -, -, -, hraised, -⟩ := hmoved
      rw [hbegin] at hstep hrec hraised
      rw [← hstep] at hrec hraised
      rw [expire_bound (s := s.elapse dt) hb, hx]
      have hid : (u.posAt p).id = (s.posAt p).id := by
        rw [← hu, posAt_modPos_same, hbegin]
      have hsame : alertNoticeOf u .alertRaised p .silent .warn ((s.posAt p).interval.getD 0 : Nat) =
          alertNoticeOf s .alertRaised p .silent .warn ((s.posAt p).interval.getD 0 : Nat) := by
        rw [alertNoticeOf, hid, ← hu]
        rfl
      have hnoticed := hraised rfl
      dsimp only [AlertRec.raisedAt] at hnoticed
      rw [hsame, ← hu] at hnoticed
      have hrec' : (((s.elapse dt).suspected p).beginSilent p).alertAt p .silent = _ := hrec
      refine ⟨?_, ?_, ?_, ?_, ?_, hnoticed⟩
      · exact congrArg AlertRec.state hrec'
      · exact congrArg AlertRec.level hrec'
      · refine (congrArg AlertRec.stamp hrec').trans ?_
        rw [← hu]
        rfl
      · exact congrArg AlertRec.acked hrec'
      · exact congrArg AlertRec.value hrec'
    case queues =>
      rw [expire_bound (s := s.elapse dt) hb, locateSilent_queues hc (hop.trans hrun) ((havail c).trans ha)
        (by rw [hcand, hlane]; exact he), htrig]
    case stays =>
      rw [expire_bound (s := s.elapse dt) hb, locateSilent_stays, htrig]
      obtain h | ⟨c, hc, ha⟩ | h := hnone
      · exact .inl h
      · exact .inr (.inl ⟨c, hc, (havail c).trans ha⟩)
      · exact .inr (.inr (by rw [hcand, hlane]; exact h))
    case candidates =>
      rw [expire_bound (s := s.elapse dt) hb, hx]
      exact hcand
  · rw [hexec, expire_unbound (s := s.elapse dt) hb]

end Sys2Proof.Machine
end

section
/-! The arrival tracker (chapter 5): what every step of it leaves, and what it does to the record of the position that a settled
telegram is taken by (R24, R92 to R97, R99). -/

namespace Sys2Proof.Machine
open Sys2Proof.Claim

/-! ### What the tracker leaves -/

/-- The fields of a record that the tracker leaves. -/
def PosRec.untracked (r : PosRec) : PosRec :=
  { r with
    state := .vacant, interval := none, drift := 0, deadline := none, missed := 0, reference := none, silent := false
    alerts := .reset }

/-- The fields that the tracker leaves, one by one. -/
theorem fields_of_untracked {r u : PosRec} (h : u.untracked = r.untracked) :
    u.id = r.id ∧ u.epoch = r.epoch ∧ u.sample = r.sample ∧ u.lastTemp = r.lastTemp ∧ u.homeLane = r.homeLane ∧
      u.handedMotion = r.handedMotion ∧ u.leak = r.leak ∧ u.claim = r.claim ∧ u.recheck = r.recheck :=
  ⟨(congrArg PosRec.id h :), (congrArg PosRec.epoch h :), (congrArg PosRec.sample h :), (congrArg PosRec.lastTemp h :),
    (congrArg PosRec.homeLane h :), (congrArg PosRec.handedMotion h :), (congrArg PosRec.leak h :),
    (congrArg PosRec.claim h :), (congrArg PosRec.recheck h :)⟩

/-- The tracker writes arrival fields, states and SILENT records, offers requests and raises notices; nothing else. -/
structure Tracks (s t : State) : Prop where
  base : t.base = s.base
  fields : ∀ p, (t.posAt p).untracked = (s.posAt p).untracked
  alerts : ∀ (p : Pos) (k : AlertKind), k ≠ .silent → t.alertAt p k = s.alertAt p k
  candidates : t.candidates = s.candidates
  intake : t.intake = s.intake
  trigger : ∃ q, t.trigger = { s.trigger with queue := q }
  control : s.control.op = .run → t.control = s.control

theorem Tracks.refl (s : State) : Tracks s s := ⟨rfl, fun _ => rfl, fun _ _ _ => rfl, rfl, rfl, ⟨_, rfl⟩, fun _ => rfl⟩

theorem Tracks.op {s t : State} (h : Tracks s t) : t.control.op = s.control.op := congrArg Base.op h.base
theorem Tracks.now {s t : State} (h : Tracks s t) : t.now = s.now := congrArg Base.now h.base
theorem Tracks.sweep {s t : State} (h : Tracks s t) : t.sweep = s.sweep := congrArg Base.sweep h.base
theorem Tracks.records {s t : State} (h : Tracks s t) : t.trigger.records = s.trigger.records := by
  obtain ⟨q, hq⟩ := h.trigger
  rw [hq]
theorem Tracks.snoop {s t : State} (h : Tracks s t) : t.snoop = s.snoop := congrArg Base.snoop h.base

theorem Tracks.trans {s t u : State} (h : Tracks s t) (h' : Tracks t u) : Tracks s u where
  base := h'.base.trans h.base
  fields p := (h'.fields p).trans (h.fields p)
  alerts p k hk := (h'.alerts p k hk).trans (h.alerts p k hk)
  candidates := h'.candidates.trans h.candidates
  intake := h'.intake.trans h.intake
  trigger := by
    obtain ⟨q, hq⟩ := h.trigger
    obtain ⟨q', hq'⟩ := h'.trigger
    exact ⟨q', by rw [hq', hq]⟩
  control hrun := (h'.control (h.op.trans hrun)).trans (h.control hrun)

theorem Tracks.foldl {α : Type} {f : State → α → State} (hf : ∀ s a, Tracks s (f s a)) (l : List α) (s : State) :
    Tracks s (l.foldl f s) := by
  induction l generalizing s with
  | nil => exact Tracks.refl s
  | cons a l ih => exact (hf s a).trans (ih _)

theorem Tracks.modPos {s : State} {p : Pos} {f : PosRec → PosRec}
    (hf : (f (s.posAt p)).untracked = (s.posAt p).untracked) (ha : (f (s.posAt p)).alerts = (s.posAt p).alerts) :
    Tracks s (s.modPos p f) where
  base := rfl
  fields q := by
    rw [posAt_modPos]
    split
    · next h => rw [hf, h]
    · rfl
  alerts q k _ := alertAt_modPos_same ha q k
  candidates := rfl
  intake := rfl
  trigger := ⟨_, rfl⟩
  control _ := rfl

/-- A change of alert records and SILENT is read off the tables. -/
theorem untracked_of_core {r u : PosRec} (h : u.core = r.core) : u.untracked = r.untracked :=
  (congrArg PosRec.untracked h : u.core.untracked = r.core.untracked)

theorem Tracks.of_tables {s t : State} (hbase : t.base = s.base) (htables : t.tables = s.tables)
    (halerts : ∀ (p : Pos) (k : AlertKind), k ≠ .silent → t.alertAt p k = s.alertAt p k)
    (hcontrol : s.control.op = .run → t.control = s.control) : Tracks s t where
  base := hbase
  fields p := untracked_of_core (core_of_tables htables p)
  alerts := halerts
  candidates := congrArg Tables.candidates htables
  intake := congrArg Tables.intake htables
  trigger := ⟨s.trigger.queue, (congrArg Tables.trigger htables : t.trigger = s.trigger)⟩
  control := hcontrol

theorem beginSilent_tracks (s : State) (p : Pos) : Tracks s (s.beginSilent p) := by
  refine Tracks.of_tables (by simp) (by simp) (fun q k hk => ?_) (beginSilent_control_run p)
  by_cases hq : q = p
  · rw [hq]
    exact alertAt_beginSilent s p hk
  · exact congrArg (fun r : PosRec => r.alerts.get k) (posAt_beginSilent_other s hq)

theorem locateSilent_tracks (s : State) (p : Pos) : Tracks s (s.locateSilent p) := by
  obtain ⟨q, hq⟩ := locateSilent_eq s p
  rw [hq]
  exact ⟨rfl, fun _ => rfl, fun _ _ _ => rfl, rfl, rfl, ⟨q, rfl⟩, fun _ => rfl⟩

theorem expire_tracks (s : State) (p : Pos) : Tracks s (s.expire p) := by
  by_cases hb : (s.posAt p).state = .bound
  · rw [expire_bound hb]
    exact (Tracks.modPos rfl rfl).trans ((beginSilent_tracks _ p).trans (locateSilent_tracks _ p))
  · rw [expire_unbound hb]
    exact Tracks.modPos rfl rfl

theorem expireIfReached_tracks (s : State) (p : Pos) : Tracks s (s.expireIfReached p) := by
  unfold State.expireIfReached
  split
  · exact expire_tracks s p
  · exact Tracks.refl s

theorem setInterval_tracks (s : State) (p : Pos) (e : Nat) : Tracks s (s.setInterval p e) := by
  unfold State.setInterval
  split
  · exact Tracks.refl s
  · exact (Tracks.modPos rfl rfl).trans (expireIfReached_tracks _ p)

theorem clampInterval_tracks (s : State) (p : Pos) : Tracks s (s.clampInterval p) := by
  unfold State.clampInterval
  split
  · exact setInterval_tracks ..
  · exact Tracks.refl s

theorem clampAll_tracks (s : State) : Tracks s s.clampAll := Tracks.foldl clampInterval_tracks _ s

theorem recomputeDeadlines_tracks (s : State) : Tracks s s.recomputeDeadlines := Tracks.foldl expireIfReached_tracks _ s

theorem takeInterval_tracks (s : State) (p : Pos) (e : Nat) (g : Int) : Tracks s (s.takeInterval p e g) := by
  unfold State.takeInterval
  dsimp only
  split
  · exact (Tracks.modPos rfl rfl).trans (setInterval_tracks ..)
  · split
    · exact (Tracks.modPos rfl rfl).trans (setInterval_tracks ..)
    · exact Tracks.modPos rfl rfl

theorem gapTest_tracks (s : State) (p : Pos) (a : Time) : Tracks s (s.gapTest p a) := by
  unfold State.gapTest
  split
  · dsimp only
    split
    · exact takeInterval_tracks ..
    · exact Tracks.modPos rfl rfl
  · exact Tracks.refl s

/-! ### The position of an arrival, before SILENT ends (R92, R97) -/

/-- What the tracker does before SILENT ends: only the record of `p` changes; a BOUND one can become SUSPECT; SILENT is not
ended; and a record that is not BOUND, or that has no deadline, makes nothing happen besides. -/
structure Arrives (p : Pos) (s t : State) : Prop where
  tracks : Tracks s t
  others : ∀ q, q ≠ p → t.posAt q = s.posAt q
  state : (t.posAt p).state = (s.posAt p).state ∨ ((s.posAt p).state = .bound ∧ (t.posAt p).state = .suspect)
  silent : (s.posAt p).silent = true → (t.posAt p).silent = true
  standing : (s.alertAt p .silent).state ≠ .clear → t.alertAt p .silent = s.alertAt p .silent
  rests : (s.posAt p).state ≠ .bound ∨ (s.posAt p).deadline = none →
    (t.posAt p).state = (s.posAt p).state ∧ ((s.posAt p).deadline = none → (t.posAt p).deadline = none) ∧
      (t.posAt p).silent = (s.posAt p).silent ∧ (t.posAt p).alerts = (s.posAt p).alerts ∧ t.notices = s.notices ∧
      t.eval = s.eval ∧ t.control = s.control

section
variable {p : Pos}

theorem Arrives.refl (s : State) : Arrives p s s :=
  ⟨Tracks.refl s, fun _ _ => rfl, .inl rfl, id, fun _ => rfl, fun _ => ⟨rfl, id, rfl, rfl, rfl, rfl, rfl⟩⟩

theorem Arrives.trans {s t u : State} (h : Arrives p s t) (h' : Arrives p t u) : Arrives p s u where
  tracks := h.tracks.trans h'.tracks
  others q hq := (h'.others q hq).trans (h.others q hq)
  state := by
    obtain ht | ⟨hs, ht⟩ := h.state <;> obtain hu | ⟨ht', hu⟩ := h'.state
    · exact .inl (hu.trans ht)
    · exact .inr ⟨ht.symm.trans ht', hu⟩
    · exact .inr ⟨hs, hu.trans ht⟩
    · rw [ht] at ht'
      cases ht'
  silent hs := h'.silent (h.silent hs)
  standing hs := by
    have ht := h.standing hs
    exact (h'.standing (by rw [ht]; exact hs)).trans ht
  rests hs := by
    obtain ⟨hst, hd, hsil, hal, hn, he, hc⟩ := h.rests hs
    have ht : (t.posAt p).state ≠ .bound ∨ (t.posAt p).deadline = none := by
      obtain hs | hs := hs
      · exact .inl (by rw [hst]; exact hs)
      · exact .inr (hd hs)
    obtain ⟨hst', hd', hsil', hal', hn', he', hc'⟩ := h'.rests ht
    exact ⟨hst'.trans hst, fun h => hd' (hd h), hsil'.trans hsil, hal'.trans hal, hn'.trans hn, he'.trans he, hc'.trans hc⟩

/-- A change of arrival fields other than the deadline. -/
theorem Arrives.modPos {s : State} {f : PosRec → PosRec} (hf : (f (s.posAt p)).untracked = (s.posAt p).untracked)
    (ha : (f (s.posAt p)).alerts = (s.posAt p).alerts) (hst : (f (s.posAt p)).state = (s.posAt p).state)
    (hsil : (f (s.posAt p)).silent = (s.posAt p).silent)
    (hd : (s.posAt p).deadline = none → (f (s.posAt p)).deadline = none) : Arrives p s (s.modPos p f) where
  tracks := Tracks.modPos hf ha
  others q hq := posAt_modPos_other s p q f hq
  state := .inl (by rw [posAt_modPos_same, hst])
  silent h := by rw [posAt_modPos_same, hsil]; exact h
  standing _ := alertAt_modPos_same ha p .silent
  rests _ := by
    rw [posAt_modPos_same]
    exact ⟨hst, hd, hsil, ha, rfl, rfl, rfl⟩

theorem silent_beginSilent (s : State) : (s.beginSilent p).alertAt p .silent = s.alertAt p .silent ∨
    (s.alertAt p .silent).state = .clear := by
  by_cases h : (s.alertAt p .silent).state = .clear
  · exact .inr h
  · rw [beginSilent_standing h]
    exact .inl (alertAt_modPos_same rfl p .silent)

theorem expire_arrives (s : State) (hreached : (s.posAt p).deadline ≠ none) : Arrives p s (s.expire p) := by
  by_cases hb : (s.posAt p).state = .bound
  · have hpos := posAt_expire_bound hb
    refine ⟨expire_tracks s p, fun q hq => posAt_expire_other s hq, .inr ⟨hb, (congrArg PosRec.state hpos :)⟩,
      fun _ => (congrArg PosRec.silent hpos :), fun hs => ?_, fun hs => absurd hs (by tauto)⟩
    have hsame : (s.suspected p).alertAt p .silent = s.alertAt p .silent := alertAt_modPos_same rfl p .silent
    obtain ⟨q, hq⟩ := locateSilent_eq ((s.suspected p).beginSilent p) p
    rw [expire_bound hb, hq]
    obtain h | h := silent_beginSilent (p := p) (s.suspected p)
    · exact h.trans hsame
    · rw [hsame] at h
      exact absurd h hs
  · rw [expire_unbound hb]
    exact Arrives.modPos rfl rfl rfl rfl fun _ => rfl

theorem expireIfReached_arrives (s : State) : Arrives p s (s.expireIfReached p) := by
  unfold State.expireIfReached
  split
  · next h =>
    refine expire_arrives s fun hnone => ?_
    rw [State.deadlineReached, hnone] at h
    cases h
  · exact Arrives.refl s

theorem setInterval_arrives (s : State) (e : Nat) : Arrives p s (s.setInterval p e) := by
  unfold State.setInterval
  split
  · exact Arrives.refl s
  · exact (Arrives.modPos rfl rfl rfl rfl id).trans (expireIfReached_arrives _)

theorem clampInterval_arrives (s : State) : Arrives p s (s.clampInterval p) := by
  unfold State.clampInterval
  split
  · exact setInterval_arrives ..
  · exact Arrives.refl s

theorem gapTest_arrives (s : State) (a : Time) : Arrives p s (s.gapTest p a) := by
  unfold State.gapTest
  split
  · dsimp only
    split
    · unfold State.takeInterval
      dsimp only
      split
      · exact (Arrives.modPos rfl rfl rfl rfl id).trans (setInterval_arrives ..)
      · split
        · exact (Arrives.modPos rfl rfl rfl rfl id).trans (setInterval_arrives ..)
        · exact Arrives.modPos rfl rfl rfl rfl id
    · exact Arrives.modPos rfl rfl rfl rfl id
  · exact Arrives.refl s

/-- R92: the clamp, the gap test and the reference. -/
def State.gapped (s : State) (p : Pos) (k : TelegramKind) (a : Time) : State :=
  if (s.clampInterval p).control.op = .run ∧ k.routine = true then
    ((s.clampInterval p).gapTest p a).modPos p (fun r => { r with reference := some a })
  else s.clampInterval p

theorem gapped_arrives (s : State) (k : TelegramKind) (a : Time) : Arrives p s (s.gapped p k a) := by
  unfold State.gapped
  split
  · exact (clampInterval_arrives s).trans ((gapTest_arrives _ a).trans (Arrives.modPos rfl rfl rfl rfl id))
  · exact clampInterval_arrives s

/-! ### The end of an arrival (R96, R97, R99) -/

/-- R96, R97: the deadline of an arrival in RUN, and a SUSPECT position BOUND. -/
def PosRec.arrived (r : PosRec) (run : Prop) [Decidable run] (a : Time) : PosRec :=
  { r with
    deadline := if run then some a else r.deadline
    state := if r.state = .suspect then .bound else r.state }

theorem track_eq (s : State) (p : Pos) (k : TelegramKind) (a : Time) : s.track p k a =
    ((s.gapped p k a).modPos p (fun r => r.arrived ((s.gapped p k a).control.op = .run) a)).endSilent p := by
  have harm : (if (s.gapped p k a).control.op = .run then (s.gapped p k a).arm p a else s.gapped p k a).modPos p
      (fun r => { r with state := if r.state = .suspect then .bound else r.state }) =
      (s.gapped p k a).modPos p (fun r => r.arrived ((s.gapped p k a).control.op = .run) a) := by
    by_cases hrun : (s.gapped p k a).control.op = .run
    · rw [if_pos hrun, State.arm, modPos_modPos]
      simp only [PosRec.arrived, if_pos hrun]
    · rw [if_neg hrun]
      unfold PosRec.arrived
      simp only [if_neg hrun]
  rw [← harm]
  rfl

theorem endSilent_silent (s : State) (p : Pos) (h : (s.posAt p).silent = true) :
    ((s.alertAt p .silent).state = .active → s.endSilent p =
      (s.modPos p (fun x => { x with silent := false })).applyMove p .silent ((s.alertAt p .silent).cleared, .cleared) 0) ∧
    ((s.alertAt p .silent).state ≠ .active → s.endSilent p = s.modPos p (fun x => { x with silent := false })) := by
  have halert : (s.modPos p (fun x => { x with silent := false })).alertAt p .silent = s.alertAt p .silent :=
    alertAt_modPos_same rfl p .silent
  unfold State.endSilent
  dsimp only
  rw [if_pos h, halert]
  exact ⟨fun ha => if_pos ha, fun ha => if_neg ha⟩

theorem endSilent_heard {s : State} {p : Pos} (h : (s.posAt p).silent = false) : s.endSilent p = s :=
  if_neg (by rw [h]; decide)

/-- R99: after SILENT has ended the flag is clear, and only the SILENT record can have moved. -/
theorem posAt_endSilent_same (s : State) (p : Pos) : (s.endSilent p).posAt p =
    { s.posAt p with silent := false, alerts := ((s.endSilent p).posAt p).alerts } := by
  cases h : (s.posAt p).silent with
  | false =>
    rw [endSilent_heard h, ← h]
  | true =>
    obtain ⟨hactive, hother⟩ := endSilent_silent s p h
    by_cases ha : (s.alertAt p .silent).state = .active
    · rw [hactive ha, posAt_applyMove, posAt_modPos_same]
    · rw [hother ha, posAt_modPos_same]

theorem alertAt_endSilent (s : State) (p q : Pos) {k : AlertKind} (hk : k ≠ .silent) :
    (s.endSilent p).alertAt q k = s.alertAt q k := by
  cases h : (s.posAt p).silent with
  | false => rw [endSilent_heard h]
  | true =>
    obtain ⟨hactive, hother⟩ := endSilent_silent s p h
    by_cases ha : (s.alertAt p .silent).state = .active
    · rw [hactive ha, alertAt_applyMove_other _ _ _ (.inr hk)]
      exact alertAt_modPos_same rfl q k
    · rw [hother ha]
      exact alertAt_modPos_same rfl q k

theorem endSilent_control_run {s : State} (hrun : s.control.op = .run) : (s.endSilent p).control = s.control := by
  cases h : (s.posAt p).silent with
  | false => rw [endSilent_heard h]
  | true =>
    obtain ⟨hactive, hother⟩ := endSilent_silent s p h
    by_cases ha : (s.alertAt p .silent).state = .active
    · rw [hactive ha]
      exact applyMove_control_run (s := s.modPos p (fun x => { x with silent := false })) p _ _ _ hrun
    · rw [hother ha]
      rfl

theorem endSilent_tracks (s : State) : Tracks s (s.endSilent p) :=
  Tracks.of_tables (by simp) (by simp) (fun q _ hk => alertAt_endSilent s p q hk) endSilent_control_run

theorem arrived_tracks (s : State) (run : Prop) [Decidable run] (a : Time) :
    Tracks s (s.modPos p (fun r => r.arrived run a)) := Tracks.modPos rfl rfl

theorem track_tracks (s : State) (k : TelegramKind) (a : Time) : Tracks s (s.track p k a) := by
  rw [track_eq]
  exact (gapped_arrives s k a).tracks.trans ((arrived_tracks _ _ a).trans (endSilent_tracks _))

theorem posAt_track_other (s : State) {q : Pos} (k : TelegramKind) (a : Time) (h : q ≠ p) :
    (s.track p k a).posAt q = s.posAt q := by
  rw [track_eq, posAt_endSilent_other _ h, posAt_modPos_other _ _ _ _ h, (gapped_arrives s k a).others q h]

/-- R92 to R97, R99: the record after an arrival, by the record after the gap test. -/
theorem posAt_track_same (s : State) (k : TelegramKind) (a : Time) : (s.track p k a).posAt p =
    { ((s.gapped p k a).posAt p).arrived (s.control.op = .run) a with
      silent := false, alerts := ((s.track p k a).posAt p).alerts } := by
  have hop := (gapped_arrives (p := p) s k a).tracks.op
  have hrec := posAt_endSilent_same ((s.gapped p k a).modPos p
    (fun r => r.arrived ((s.gapped p k a).control.op = .run) a)) p
  rw [← track_eq, posAt_modPos_same] at hrec
  rw [hrec]
  simp only [hop]

/-- R24, R97: the state after an arrival. -/
theorem state_track (s : State) (k : TelegramKind) (a : Time) :
    ((s.posAt p).state = .bound → ((s.track p k a).posAt p).state = .bound) ∧
      ((s.posAt p).state = .conflict → ((s.track p k a).posAt p).state = .conflict) := by
  have hrec := congrArg PosRec.state (posAt_track_same (p := p) s k a)
  dsimp only [PosRec.arrived] at hrec
  have hstate := (gapped_arrives (p := p) s k a).state
  refine ⟨fun hb => ?_, fun hc => ?_⟩
  · rw [hrec]
    obtain h | ⟨-, h⟩ := hstate
    · rw [h, hb]
      rfl
    · rw [h]
      rfl
  · rw [hrec]
    obtain h | ⟨h, -⟩ := hstate
    · rw [h, hc]
      rfl
    · rw [hc] at h
      cases h

/-- R92: an arrival at a position that is not SILENT, and that is not BOUND or has no deadline, moves no alert record and raises
nothing. -/
theorem track_rests (s : State) (k : TelegramKind) (a : Time) (hsilent : (s.posAt p).silent = false)
    (h : (s.posAt p).state ≠ .bound ∨ (s.posAt p).deadline = none) :
    ((s.track p k a).posAt p).alerts = (s.posAt p).alerts ∧ (s.track p k a).notices = s.notices ∧
      (s.track p k a).eval = s.eval ∧ (s.track p k a).control = s.control := by
  obtain ⟨-, -, hsil, hal, hn, he, hc⟩ := (gapped_arrives (p := p) s k a).rests h
  rw [track_eq, endSilent_heard, posAt_modPos_same]
  · exact ⟨hal, hn, he, hc⟩
  · rw [posAt_modPos_same]
    exact hsil.trans hsilent

/-- R99: an ACTIVE record of a SILENT position is CLEAR after an arrival. -/
theorem silent_track (s : State) (k : TelegramKind) (a : Time) (hsilent : (s.posAt p).silent = true)
    (h : (s.alertAt p .silent).state = .active) : ((s.track p k a).alertAt p .silent).state = .clear := by
  have harr := gapped_arrives (p := p) s k a
  have hstand := harr.standing (by rw [h]; decide)
  generalize hu : (s.gapped p k a).modPos p (fun r => r.arrived ((s.gapped p k a).control.op = .run) a) = u
  have halert : u.alertAt p .silent = s.alertAt p .silent := by
    rw [← hu, ← hstand]
    exact alertAt_modPos_same rfl p .silent
  have hflag : (u.posAt p).silent = true := by
    rw [← hu, posAt_modPos_same]
    exact harr.silent hsilent
  rw [track_eq, hu, (endSilent_silent u p hflag).1 (by rw [halert]; exact h), alertAt_applyMove_same]
  rfl

end

end Sys2Proof.Machine
end

section
/-! A settled telegram of an ID that a position holds (R40 to R42, R23, R24, R92 to R97): dropped, taken and evaluated, taken
alone, or ignored; and the moves of the alert records that its evaluation makes (R107 to R122). -/

namespace Sys2Proof.Machine
open Sys2Proof.Claim

/-! ### The settling of the head (R39, R40) -/

/-- R40: the head has left the recent list. -/
def State.settled (s : State) (dt : Nat) (rest : List RecentEntry) : State :=
  { s.elapse dt with intake := { s.intake with recent := rest } }

theorem exec_entrySettle {s : State} {dt : Nat} {e : RecentEntry} {rest : List RecentEntry}
    (h : s.intake.recent = e :: rest) (hdue : e.firstArrival + 120 ≤ s.now + dt) :
    exec (.entrySettle dt) s = .next ((s.settled dt rest).route e) := by
  have hsettle : (s.elapse dt).settleDue = (s.elapse dt).settleHead := by
    unfold State.settleDue
    simp only [elapse_intake, h]
    exact if_pos hdue
  change Host.Outcome.next (s.elapse dt).settleDue = _
  rw [hsettle, settleHead_cons (s := s.elapse dt) h]
  rfl

/-! ### The offer to the trigger unit (R44, R68, R69) -/

theorem offerAnswer_shape (s : State) (i : SensorId) (echo lf : BitVec 4) (a : Time) :
    ∃ tr cs, s.offerAnswer i echo lf a = { s with trigger := tr, candidates := cs } ∧
      cs.map unanswered = s.candidates.map unanswered := by
  unfold State.offerAnswer
  split
  · exact ⟨_, s.candidates, rfl, rfl⟩
  · refine ⟨_, _, rfl, ?_⟩
    split
    · rw [List.map_map]
      refine List.map_congr_left fun e _ => ?_
      simp only [Function.comp_apply]
      split <;> rfl
    · rfl

/-- R44: an offer to the trigger unit writes that unit and the answers of candidates. -/
theorem offerTriggered_shape (s : State) (e : RecentEntry) :
    ∃ tr cs, s.offerTriggered e = { s with trigger := tr, candidates := cs } ∧
      cs.map unanswered = s.candidates.map unanswered := by
  unfold State.offerTriggered
  split
  · exact offerAnswer_shape ..
  · exact ⟨s.trigger, s.candidates, rfl, rfl⟩

theorem offerTriggered_other {s : State} {e : RecentEntry} (h : e.payload.kind ≠ .triggered) : s.offerTriggered e = s :=
  if_neg h

theorem posAt_offerTriggered (s : State) (e : RecentEntry) (p : Pos) : (s.offerTriggered e).posAt p = s.posAt p := by
  obtain ⟨tr, cs, h, -⟩ := offerTriggered_shape s e
  rw [h]
  rfl

/-! ### Routing (R41, R42) -/

/-- R23, R24: the state in which a position has taken a sample and the tracker has followed it. -/
def State.sampled (s : State) (p : Pos) (e : RecentEntry) : State :=
  (s.fillSample p e).track p e.payload.kind e.firstArrival

section
variable {s : State} {p : Pos} {e : RecentEntry}

theorem route_late (h : s.holder e.payload.id = some p) (hlate : lateRepeat (s.posAt p) e s.now = true) :
    s.route e = s := by
  rw [State.route, h]
  exact if_pos hlate

theorem route_held (h : s.holder e.payload.id = some p) (hlate : lateRepeat (s.posAt p) e s.now = false) :
    s.route e = (s.applySample p e).offerTriggered e := by
  rw [State.route, h]
  exact if_neg (by rw [hlate]; decide)

theorem posAt_fillSample_same (s : State) (p : Pos) (e : RecentEntry) : (s.fillSample p e).posAt p =
    { s.posAt p with
      sample := some (sampleOf e (s.posAt p).lastTemp (s.setting .patm) s.now)
      lastTemp := lastTempAfter (s.posAt p).lastTemp e.payload.temp
      homeLane := bestLane e.heard
      state := if (s.posAt p).state = .suspect then .bound else (s.posAt p).state } := posAt_modPos_same ..

theorem applySample_evaluated (h : (s.posAt p).state = .bound ∨ (s.posAt p).state = .suspect) :
    s.applySample p e = (s.sampled p e).evaluateSample p (sampleOf e (s.posAt p).lastTemp (s.setting .patm) s.now) := by
  have hsample : ((s.fillSample p e).posAt p).sample =
      some (sampleOf e (s.posAt p).lastTemp (s.setting .patm) s.now) := by
    rw [posAt_fillSample_same]
  have hbody : (match ((s.fillSample p e).posAt p).sample with
      | some x => (s.sampled p e).evaluateSample p x
      | none => s.sampled p e) =
      (s.sampled p e).evaluateSample p (sampleOf e (s.posAt p).lastTemp (s.setting .patm) s.now) := by
    rw [hsample]
  rw [← hbody]
  unfold State.applySample
  obtain h | h := h <;> rw [h] <;> rfl

theorem applySample_conflict (h : (s.posAt p).state = .conflict) : s.applySample p e = s.sampled p e := by
  unfold State.applySample
  rw [h]
  rfl

theorem applySample_detached (h : (s.posAt p).state = .detached) : s.applySample p e = s := by
  unfold State.applySample
  rw [h]

end

/-- R23, R102: what a sample shows. -/
theorem sampleShows_sampleOf (r : PosRec) (e : RecentEntry) (patm now : Nat) :
    sampleShows r e patm now (sampleOf e r.lastTemp patm now) :=
  ⟨rfl, rfl, rfl, rfl, rfl, rfl, rfl, rfl, rfl, rfl, rfl⟩

/-! ### The record after a sample (R23, R24) -/

section
variable (s : State) (p : Pos) (e : RecentEntry)

theorem posAt_sampled_other {q : Pos} (h : q ≠ p) : (s.sampled p e).posAt q = s.posAt q := by
  rw [State.sampled, posAt_track_other _ _ _ h]
  exact posAt_modPos_other _ _ _ _ h

/-- The fields that the tracker leaves are those of the filled record. -/
theorem untracked_sampled : ((s.sampled p e).posAt p).untracked = ((s.fillSample p e).posAt p).untracked :=
  (track_tracks _ _ _).fields p

theorem sampled_sample : ((s.sampled p e).posAt p).sample =
    some (sampleOf e (s.posAt p).lastTemp (s.setting .patm) s.now) := by
  obtain ⟨-, -, hsample, -⟩ := fields_of_untracked (untracked_sampled s p e)
  rw [hsample, posAt_fillSample_same]

theorem sampled_fields : ((s.sampled p e).posAt p).lastTemp = lastTempAfter (s.posAt p).lastTemp e.payload.temp ∧
    ((s.sampled p e).posAt p).homeLane = bestLane e.heard ∧ ((s.sampled p e).posAt p).id = (s.posAt p).id ∧
    ((s.sampled p e).posAt p).epoch = (s.posAt p).epoch ∧ ((s.sampled p e).posAt p).leak = (s.posAt p).leak := by
  obtain ⟨hid, hepoch, -, htemp, hlane, -, hleak, -, -⟩ := fields_of_untracked (untracked_sampled s p e)
  rw [hid, hepoch, htemp, hlane, hleak, posAt_fillSample_same]
  exact ⟨rfl, rfl, rfl, rfl, rfl⟩

theorem sampled_silent : ((s.sampled p e).posAt p).silent = false :=
  (congrArg PosRec.silent (posAt_track_same (s.fillSample p e) e.payload.kind e.firstArrival) :)

theorem sampled_bound (h : (s.posAt p).state = .bound ∨ (s.posAt p).state = .suspect) :
    ((s.sampled p e).posAt p).state = .bound := by
  have hstate := congrArg PosRec.state (posAt_fillSample_same s p e)
  dsimp only at hstate
  refine (state_track (s.fillSample p e) e.payload.kind e.firstArrival).1 (hstate.trans ?_)
  obtain h | h := h <;> rw [h] <;> rfl

theorem sampled_conflict (h : (s.posAt p).state = .conflict) : ((s.sampled p e).posAt p).state = .conflict := by
  have hstate := congrArg PosRec.state (posAt_fillSample_same s p e)
  dsimp only at hstate
  refine (state_track (s.fillSample p e) e.payload.kind e.firstArrival).2 (hstate.trans ?_)
  rw [h]
  rfl

theorem sampled_base : (s.sampled p e).base = s.base := by simp [State.sampled]

theorem sampled_candidates : (s.sampled p e).candidates = s.candidates := (track_tracks (s.fillSample p e) _ _).candidates
theorem sampled_intake : (s.sampled p e).intake = s.intake := (track_tracks (s.fillSample p e) _ _).intake

theorem sampled_alerts {k : AlertKind} (h : k ≠ .silent) : (s.sampled p e).alertAt p k = s.alertAt p k := by
  refine ((track_tracks (s.fillSample p e) _ _).alerts p k h).trans ?_
  rw [State.alertAt, posAt_fillSample_same]
  rfl

theorem sampled_rests (hsilent : (s.posAt p).silent = false)
    (h : (s.posAt p).state = .conflict ∨ (s.posAt p).deadline = none) :
    ((s.sampled p e).posAt p).alerts = (s.posAt p).alerts ∧ (s.sampled p e).notices = s.notices ∧
      (s.sampled p e).eval = s.eval ∧ (s.sampled p e).control = s.control := by
  have hrest : ((s.fillSample p e).posAt p).state ≠ .bound ∨ ((s.fillSample p e).posAt p).deadline = none := by
    rw [posAt_fillSample_same]
    obtain h | h := h
    · dsimp only
      rw [h]
      exact .inl (by decide)
    · exact .inr h
  obtain ⟨hal, hn, he, hc⟩ := track_rests (s.fillSample p e) e.payload.kind e.firstArrival (p := p)
    (by rw [posAt_fillSample_same]; exact hsilent) hrest
  refine ⟨hal.trans ?_, hn, he, hc⟩
  rw [posAt_fillSample_same]

end

/-! ### O17: the moves of the alert records -/

/-- R107, R115, R118 to R120: the rows of a move on a result. -/
theorem alertRec_move (r : AlertRec) (p c : Nat) :
    (∀ res : EvalResult, res.raising = true → r.state = .clear → p = 1 →
      (r.move res p c).2 = .raised ∧ (r.move res p c).1.state = .active ∧ (r.move res p c).1.level = res.level ∧
        (r.move res p c).1.acked = false) ∧
    (∀ res : EvalResult, res.raising = true → r.state = .clear → 1 < p →
      (r.move res p c).2 = .none ∧ (r.move res p c).1.state = .pending ∧ (r.move res p c).1.pendingCount = 1) ∧
    (∀ res : EvalResult, res.raising = true → r.state = .pending → p ≤ r.pendingCount + 1 →
      (r.move res p c).2 = .raised ∧ (r.move res p c).1.state = .active ∧ (r.move res p c).1.level = res.level ∧
        (r.move res p c).1.pendingCount = 0) ∧
    (∀ res : EvalResult, res.raising = true → r.state = .pending → r.pendingCount + 1 < p →
      (r.move res p c).2 = .none ∧ (r.move res p c).1 = { r with pendingCount := r.pendingCount + 1 }) ∧
    (∀ res : EvalResult, res.raising = false → r.state = .clear → r.move res p c = (r, .none)) ∧
    (∀ res : EvalResult, res.raising = false → r.state = .pending →
      (r.move res p c).2 = .none ∧ (r.move res p c).1.state = .clear ∧ (r.move res p c).1.pendingCount = 0) ∧
    ((r.state = .active ∨ r.state = .clearing) → r.level = .warn →
      (r.move .alarm p c).2 = .escalated ∧ (r.move .alarm p c).1.state = .active ∧
        (r.move .alarm p c).1.level = .alarm ∧ (r.move .alarm p c).1.acked = false) ∧
    (r.state = .active → (r.move .warn p c) = (r, .none) ∧ (r.move .band p c) = (r, .none) ∧
      (r.level = .alarm → r.move .alarm p c = (r, .none))) ∧
    (r.state = .clearing → ∀ res : EvalResult, res ≠ .clear → (res = .alarm → r.level = .alarm) →
      r.move res p c = ({ r with state := .active, clearCount := 0 }, .none)) ∧
    (r.state = .active → 1 < c →
      r.move .clear p c = ({ r with state := .clearing, clearCount := 1 }, .none)) ∧
    (((r.state = .active ∧ c = 1) ∨ (r.state = .clearing ∧ c ≤ r.clearCount + 1)) →
      (r.move .clear p c).2 = .cleared ∧ (r.move .clear p c).1.state = .clear ∧ (r.move .clear p c).1.level = .warn ∧
        (r.move .clear p c).1.acked = false) ∧
    (r.state = .clearing → r.clearCount + 1 < c →
      r.move .clear p c = ({ r with clearCount := r.clearCount + 1 }, .none)) := by
  refine ⟨fun res hr hs h1 => ?_, fun res hr hs h1 => ?_, fun res hr hs h1 => ?_, fun res hr hs h1 => ?_, fun res hr hs => ?_,
    fun res hr hs => ?_, fun hs hl => ?_, fun hs => ⟨?_, ?_, fun hl => ?_⟩, fun hs res hres hl => ?_, fun hs h1 => ?_,
    fun h => ?_, fun hs h1 => ?_⟩
  · simp [AlertRec.move, hs, hr, h1, AlertRec.raisedAt]
  · simp [AlertRec.move, hs, hr, Nat.not_le.mpr h1]
  · simp [AlertRec.move, hs, hr, h1, AlertRec.raisedAt]
  · simp [AlertRec.move, hs, hr, Nat.not_le.mpr h1]
  · simp [AlertRec.move, hs, hr]
  · simp [AlertRec.move, hs, hr, AlertRec.cleared]
  · obtain hs | hs := hs <;> simp [AlertRec.move, hs, hl, AlertRec.escalatedRec]
  · simp [AlertRec.move, hs]
  · simp [AlertRec.move, hs]
  · simp [AlertRec.move, hs, hl]
  · cases res with
    | alarm => simp [AlertRec.move, hs, hl rfl]
    | warn => simp [AlertRec.move, hs]
    | band => simp [AlertRec.move, hs]
    | clear => exact absurd rfl hres
  · simp [AlertRec.move, hs, Nat.not_le.mpr h1]
  · obtain ⟨hs, h1⟩ | ⟨hs, h1⟩ := h <;> simp [AlertRec.move, hs, h1, AlertRec.cleared]
  · simp [AlertRec.move, hs, Nat.not_le.mpr h1]

/-- R115: the LEAK record on an ALERT telegram. -/
theorem alertRec_moveAlertTelegram (r : AlertRec) :
    ((r.state = .clear ∨ r.state = .pending) → r.moveAlertTelegram.2 = .raised ∧ r.moveAlertTelegram.1.state = .active ∧
      r.moveAlertTelegram.1.level = .alarm ∧ r.moveAlertTelegram.1.acked = false) ∧
    ((r.state = .active ∨ r.state = .clearing) → r.level = .warn → r.moveAlertTelegram.2 = .escalated ∧
      r.moveAlertTelegram.1.state = .active ∧ r.moveAlertTelegram.1.level = .alarm ∧
      r.moveAlertTelegram.1.acked = false) ∧
    (r.state = .active → r.level = .alarm → r.moveAlertTelegram = (r, .none)) ∧
    (r.state = .clearing → r.level = .alarm →
      r.moveAlertTelegram = ({ r with state := .active, clearCount := 0 }, .none)) := by
  refine ⟨fun hs => ?_, fun hs hl => ?_, fun hs hl => ?_, fun hs hl => ?_⟩
  · obtain hs | hs := hs <;> simp [AlertRec.moveAlertTelegram, hs, AlertRec.raisedAt]
  · obtain hs | hs := hs <;> simp [AlertRec.moveAlertTelegram, hs, hl, AlertRec.escalatedRec]
  · simp [AlertRec.moveAlertTelegram, hs, hl]
  · simp [AlertRec.moveAlertTelegram, hs, hl]

/-- The tipping freeze is read off the settings and the settle timer. -/
theorem frozen_of_base {s t : State} (h : t.base = s.base) : t.frozen = s.frozen := by
  have hsnoop : t.snoop = s.snoop := congrArg Base.snoop h
  have hsettle : t.eval.settleEnd = s.eval.settleEnd := congrArg Base.settleEnd h
  unfold State.frozen State.bodyRaised State.copy
  rw [hsnoop, hsettle]

/-- Settles O17: the rows of the move, the move applied (`alertMoved_applyMove`), and the sample evaluated after the tracker. -/
theorem alertRecordMoves : Obligations.AlertRecordMoves := by
  refine ⟨fun r p c _ _ => alertRec_move r p c, alertRec_moveAlertTelegram,
    fun s p k res v => alertMoved_applyMove s p k _ v, fun s p => alertMoved_applyMove s p .leak _ _, ?sample⟩
  intro dt e rest p s hrecent hdue hholder hstate hlate
  have hexec := exec_entrySettle hrecent hdue
  rw [route_held (s := s.settled dt rest) hholder hlate, applySample_evaluated (s := s.settled dt rest) hstate] at hexec
  generalize hx : sampleOf e ((s.settled dt rest).posAt p).lastTemp ((s.settled dt rest).setting .patm)
    (s.settled dt rest).now = x at hexec
  generalize hu : (s.settled dt rest).sampled p e = u at hexec
  have hshow : sampleShows (s.posAt p) e (s.setting .patm) (s.now + dt) x := by
    rw [← hx]
    exact sampleShows_sampleOf (s.posAt p) e (s.setting .patm) (s.now + dt)
  obtain ⟨tr, cs, hoffer, -⟩ := offerTriggered_shape (u.evaluateSample p x) e
  have htables := evaluateSample_tables u p x
  have htrig : (u.evaluateSample p x).trigger = u.trigger := (congrArg Tables.trigger htables :)
  have hcand : (u.evaluateSample p x).candidates = u.candidates := (congrArg Tables.candidates htables :)
  have hkind : x.kind = e.payload.kind := by rw [← hx]; rfl
  have heval : u.evaluateSample p x = if e.payload.kind = .alert
      then (((((u.evalLow p x).evalHigh p x).evalHot p x).evalSensor p x).evalMismatch p).evalAlertTelegram p
      else ((((u.evalLow p x).evalHigh p x).evalHot p x).evalSensor p x).evalMismatch p := by
    rw [← hkind]
    rfl
  refine ⟨_, u, x, hexec, ?_, hshow, ?_, ?_, ?_, fun q hq => ?_, fun k hk => ?_, fun hsil hact => ?_, fun hsil hd => ?_,
    ?_, ?_, fun hk => ?_, ?_⟩
  · rw [← hu, ← hx]
    exact sampled_sample _ p e
  · rw [← hu]
    exact sampled_bound (s.settled dt rest) p e hstate
  · rw [← hu]
    exact sampled_silent _ p e
  · obtain ⟨-, -, -, -, hleak⟩ := sampled_fields (s.settled dt rest) p e
    rw [← hu]
    exact hleak
  · rw [← hu]
    exact posAt_sampled_other (s.settled dt rest) p e hq
  · rw [← hu]
    exact sampled_alerts (s.settled dt rest) p e hk
  · have hfill := posAt_fillSample_same (s.settled dt rest) p e
    rw [← hu]
    refine silent_track ((s.settled dt rest).fillSample p e) e.payload.kind e.firstArrival
      (by rw [hfill]; exact hsil) ?_
    rw [State.alertAt, hfill]
    exact hact
  · rw [← hu]
    exact sampled_rests (s.settled dt rest) p e hsil (.inr hd)
  · rw [← hu]
    exact frozen_of_base (s := s.settled dt rest) (sampled_base _ p e)
  · rw [← hu]
    exact hostSideSame_of_base (s := s.settled dt rest) (sampled_base _ p e)
  · rw [offerTriggered_other hk]
    exact ⟨htrig, hcand⟩
  · rw [hoffer, ← heval, ← htrig, ← hcand]

end Sys2Proof.Machine
end

section
/-! A settled telegram of an ID that a position holds (O13), and the drift of the expected interval that its gap makes (R90, R93,
R94). -/

namespace Sys2Proof.Machine
open Sys2Proof.Claim

/-! ### What an expiry leaves of the interval (R97) -/

/-- An expiry leaves the interval, the drift count, the missed count and the reference. -/
theorem interval_expireIfReached (s : State) (p : Pos) :
    ((s.expireIfReached p).posAt p).interval = (s.posAt p).interval ∧
      ((s.expireIfReached p).posAt p).drift = (s.posAt p).drift ∧
      ((s.expireIfReached p).posAt p).missed = (s.posAt p).missed := by
  unfold State.expireIfReached
  split
  · by_cases hb : (s.posAt p).state = .bound
    · rw [posAt_expire_bound hb]
      exact ⟨rfl, rfl, rfl⟩
    · rw [expire_unbound hb, posAt_modPos_same]
      exact ⟨rfl, rfl, rfl⟩
  · exact ⟨rfl, rfl, rfl⟩

theorem interval_setInterval (s : State) (p : Pos) (e : Nat) : ((s.setInterval p e).posAt p).interval = some e ∧
    ((s.setInterval p e).posAt p).drift = (s.posAt p).drift ∧
    ((s.setInterval p e).posAt p).missed = (s.posAt p).missed := by
  unfold State.setInterval
  split
  · next h => exact ⟨h, rfl, rfl⟩
  · obtain ⟨hi, hd, hm⟩ := interval_expireIfReached (s.modPos p (fun r => { r with interval := some e })) p
    rw [hi, hd, hm, posAt_modPos_same]
    exact ⟨rfl, rfl, rfl⟩

/-! ### The gap of a routine sample (R92 to R94) -/

/-- R93: the drift limit is reached at a step up, at a step down, or not. -/
theorem takeInterval_rows (s : State) (p : Pos) (i : Nat) (g : Int) :
    let d' := driftAfter (s.posAt p).drift g (1000 * i)
    let u : Int := s.setting .driftLimit
    let r := (s.takeInterval p i g).posAt p
    r.missed = (s.posAt p).missed ∧
      (u ≤ d' → r.drift = 0 ∧ r.interval = some (clampTo (s.rangeOf p) (i + s.setting .driftStep))) ∧
      (d' < u → d' ≤ -u → r.drift = 0 ∧ r.interval = some (clampTo (s.rangeOf p) (i - s.setting .driftStep))) ∧
      (d' < u → -u < d' → r.drift = d' ∧ r.interval = (s.posAt p).interval) := by
  intro d' u r
  have hrange : (s.modPos p (fun r => { r with drift := 0 })).rangeOf p = s.rangeOf p := by
    unfold State.rangeOf
    rw [posAt_modPos_same]
    rfl
  by_cases hup : u ≤ d'
  · have hr : r = _ := congrArg (fun t : State => t.posAt p) (if_pos hup : s.takeInterval p i g = _)
    obtain ⟨hi, hd, hm⟩ := interval_setInterval (s.modPos p (fun r => { r with drift := 0 })) p
      (clampTo (s.rangeOf p) (i + s.setting .driftStep))
    rw [posAt_modPos_same] at hd hm
    rw [hr]
    exact ⟨hm, fun _ => ⟨hd, hi⟩, fun h => absurd hup (by omega), fun h => absurd hup (by omega)⟩
  · by_cases hdown : d' ≤ -u
    · have hr : r = _ := congrArg (fun t : State => t.posAt p)
        ((if_neg hup).trans (if_pos hdown) : s.takeInterval p i g = _)
      obtain ⟨hi, hd, hm⟩ := interval_setInterval (s.modPos p (fun r => { r with drift := 0 })) p
        (clampTo (s.rangeOf p) (i - s.setting .driftStep))
      rw [posAt_modPos_same] at hd hm
      rw [hr]
      exact ⟨hm, fun h => absurd h hup, fun _ _ => ⟨hd, hi⟩, fun _ h => absurd hdown (by omega)⟩
    · have hr : r = _ := congrArg (fun t : State => t.posAt p)
        ((if_neg hup).trans (if_neg hdown) : s.takeInterval p i g = _)
      rw [hr, posAt_modPos_same]
      exact ⟨rfl, fun h => absurd h hup, fun _ h => absurd h hdown, fun _ _ => ⟨rfl, rfl⟩⟩

section
variable {s : State} {p : Pos} {ref i : Nat} {a : Time}

theorem gapTest_short (hr : (s.posAt p).reference = some ref) (hi : (s.posAt p).interval = some i)
    (h : 16 * ((a : Int) - ref) ≤ 1500 * (i : Int)) : s.gapTest p a = s.takeInterval p i (16 * ((a : Int) - ref)) := by
  unfold State.gapTest
  rw [hr, hi]
  exact if_pos h

theorem gapTest_long (hr : (s.posAt p).reference = some ref) (hi : (s.posAt p).interval = some i)
    (h : 1500 * (i : Int) < 16 * ((a : Int) - ref)) : s.gapTest p a = s.takeLongGap p i (16 * ((a : Int) - ref)) := by
  unfold State.gapTest
  rw [hr, hi]
  exact if_neg (by omega)

theorem clampInterval_within (hi : (s.posAt p).interval = some i) (h : clampTo (s.rangeOf p) i = i) :
    s.clampInterval p = s := by
  unfold State.clampInterval
  rw [hi]
  dsimp only
  rw [h, State.setInterval, if_pos hi]

theorem clampTo_eq_self {r : Nat × Nat} (h₁ : r.1 ≤ i) (h₂ : i ≤ r.2) : clampTo r i = i := by
  unfold clampTo
  omega

theorem gapped_within {k : TelegramKind} (hi : (s.posAt p).interval = some i) (h : clampTo (s.rangeOf p) i = i)
    (hrun : s.control.op = .run) (hk : k.routine = true) :
    (s.gapped p k a).posAt p = { (s.gapTest p a).posAt p with reference := some a } := by
  unfold State.gapped
  rw [clampInterval_within hi h, if_pos ⟨hrun, hk⟩, posAt_modPos_same]

end

/-- R89: the range of a position that has taken a telegram is that of the telegram's motion flag. -/
theorem rangeOf_fillSample (s : State) (p : Pos) (e : RecentEntry) :
    (s.fillSample p e).rangeOf p = s.rangeFor (!(s.lifted p) && e.payload.motion) := by
  have hrolls : ((s.fillSample p e).posAt p).rolls = e.payload.motion := by
    rw [posAt_fillSample_same]
    rfl
  unfold State.rangeOf
  rw [hrolls]
  rfl

/-! ### SILENT is no matter of an evaluation (R99, R107) -/

section
variable (s : State) (p : Pos) (x : Sample) (q : Pos)

theorem evaluate_silent (k : AlertKind) (res : EvalResult) (v : Int) :
    ((s.evaluate p k res v).posAt q).silent = (s.posAt q).silent := by
  rw [State.evaluate, posAt_applyMove]

theorem evalLow_silent : ((s.evalLow p x).posAt q).silent = (s.posAt q).silent := by
  unfold State.evalLow
  split
  · rfl
  · exact evaluate_silent ..

theorem evalHigh_silent : ((s.evalHigh p x).posAt q).silent = (s.posAt q).silent := by
  unfold State.evalHigh
  split
  · rfl
  · split
    · rfl
    · exact evaluate_silent ..

theorem evalHot_silent : ((s.evalHot p x).posAt q).silent = (s.posAt q).silent := by
  unfold State.evalHot
  split
  · rfl
  · rfl
  · exact evaluate_silent ..

theorem evalMismatch_silent : ((s.evalMismatch p).posAt q).silent = (s.posAt q).silent := by
  obtain h | ⟨o, r, d, h⟩ := evalMismatch_cases s p
  · rw [h]
  · rw [h]
    exact evaluate_silent ..

theorem evaluateSample_silent : ((s.evaluateSample p x).posAt q).silent = (s.posAt q).silent := by
  have hfive : ((((((s.evalLow p x).evalHigh p x).evalHot p x).evalSensor p x).evalMismatch p).posAt q).silent =
      (s.posAt q).silent := by
    rw [evalMismatch_silent, State.evalSensor, evaluate_silent, evalHot_silent, evalHigh_silent, evalLow_silent]
  unfold State.evaluateSample
  dsimp only
  split
  · rw [State.evalAlertTelegram, posAt_applyMove]
    exact hfive
  · exact hfive

end

/-! ### A telegram taken (R24, R41, R42) -/

/-- The record of the position after the routing, but for its alerts. -/
theorem core_applySample {s : State} {p : Pos} {e : RecentEntry}
    (h : (s.posAt p).state = .bound ∨ (s.posAt p).state = .suspect ∨ (s.posAt p).state = .conflict) (q : Pos) :
    (((s.applySample p e).offerTriggered e).posAt q).core = ((s.sampled p e).posAt q).core := by
  rw [posAt_offerTriggered]
  obtain h | h | h := h
  · rw [applySample_evaluated (.inl h)]
    exact core_of_tables (evaluateSample_tables ..) q
  · rw [applySample_evaluated (.inr h)]
    exact core_of_tables (evaluateSample_tables ..) q
  · rw [applySample_conflict h]

/-- What the offer to the trigger unit leaves: all but that unit and the answers. -/
theorem offered_aside {s : State} (e : RecentEntry) :
    (s.offerTriggered e).base = s.base ∧ (s.offerTriggered e).intake = s.intake ∧
      (s.offerTriggered e).positions = s.positions ∧ (s.offerTriggered e).notices = s.notices ∧
      (s.offerTriggered e).eval = s.eval ∧
      (s.offerTriggered e).candidates.map unanswered = s.candidates.map unanswered ∧
      (e.payload.kind ≠ .triggered → (s.offerTriggered e).candidates = s.candidates) := by
  obtain ⟨tr, cs, h, hcs⟩ := offerTriggered_shape s e
  refine ⟨by rw [h]; rfl, by rw [h], by rw [h], by rw [h], by rw [h], by rw [h]; exact hcs, fun hk => ?_⟩
  rw [offerTriggered_other hk]

/-- Settles O13: the rows of `route` and `applySample`; the drift is `takeInterval_rows`. -/
theorem heldTelegramIsDroppedOrTaken : Obligations.HeldTelegramIsDroppedOrTaken := by
  refine ⟨?late, ?evaluated, ?conflict, ?detached, ?drift⟩
  case late =>
    intro dt e rest p x s hrecent hdue hholder hsample hseq hnow
    have hlate : lateRepeat (s.posAt p) e (s.now + dt) = true := by
      unfold lateRepeat
      rw [hsample]
      exact Bool.and_eq_true_iff.mpr ⟨beq_iff_eq.mpr hseq, decide_eq_true hnow⟩
    rw [exec_entrySettle hrecent hdue, route_late (s := s.settled dt rest) hholder hlate]
    rfl
  case evaluated =>
    intro dt e rest p s hrecent hdue hholder hstate hlate
    have hexec := exec_entrySettle hrecent hdue
    rw [route_held (s := s.settled dt rest) hholder hlate] at hexec
    have hcore := core_applySample (s := s.settled dt rest) (p := p) (e := e) (by tauto)
    have heval := applySample_evaluated (s := s.settled dt rest) (p := p) (e := e) hstate
    obtain ⟨htemp, hlane, hid, hepoch, -⟩ := sampled_fields (s.settled dt rest) p e
    have hsample := sampled_sample (s.settled dt rest) p e
    have hbound := sampled_bound (s.settled dt rest) p e hstate
    have hother (q : Pos) (hq : q ≠ p) := posAt_sampled_other (s.settled dt rest) p e hq
    have hcand := sampled_candidates (s.settled dt rest) p e
    have hintake := sampled_intake (s.settled dt rest) p e
    have hbase := sampled_base (s.settled dt rest) p e
    have hsil := sampled_silent (s.settled dt rest) p e
    generalize hu : (s.settled dt rest).sampled p e = u at *
    generalize hx : sampleOf e ((s.settled dt rest).posAt p).lastTemp ((s.settled dt rest).setting .patm)
      (s.settled dt rest).now = x at *
    have hshow : sampleShows (s.posAt p) e (s.setting .patm) (s.now + dt) x := by
      rw [← hx]
      exact sampleShows_sampleOf (s.posAt p) e (s.setting .patm) (s.now + dt)
    obtain ⟨hobase, hointake, hopos, -, -, -, hocand⟩ := offered_aside (s := (s.settled dt rest).applySample p e) e
    have htables := evaluateSample_tables u p x
    have hsilent : ((((s.settled dt rest).applySample p e).offerTriggered e).posAt p).silent = false := by
      rw [posAt_offerTriggered, heval]
      exact (evaluateSample_silent u p x p).trans hsil
    generalize ht : ((s.settled dt rest).applySample p e).offerTriggered e = t at *
    refine ⟨t, x, hexec, (congrArg PosRec.sample (hcore p) :).trans hsample, hshow,
      (congrArg PosRec.lastTemp (hcore p) :).trans htemp, (congrArg PosRec.homeLane (hcore p) :).trans hlane, hsilent,
      fun q => ?_, ?_, fun hk => ?_, ?_⟩
    · by_cases hq : q = p
      · subst hq
        rw [posAt_modPos_same]
        exact ⟨(congrArg PosRec.state (hcore q) :).trans hbound, (congrArg PosRec.id (hcore q) :).trans hid,
          (congrArg PosRec.epoch (hcore q) :).trans hepoch⟩
      · have hq' := hcore q
        rw [hother q hq] at hq'
        rw [posAt_modPos_other _ _ _ _ hq]
        exact ⟨(congrArg PosRec.state hq' :), (congrArg PosRec.id hq' :), (congrArg PosRec.epoch hq' :)⟩
    · rw [hointake, heval, evaluateSample_intake, hintake]
      rfl
    · rw [hocand hk, heval]
      exact (congrArg Tables.candidates htables :).trans hcand
    · refine hostSideSame_of_base (s := s.settled dt rest) (hobase.trans ?_)
      rw [heval, evaluateSample_base, hbase]
  case conflict =>
    intro dt e rest p s hrecent hdue hholder hstate hsil hlate
    have hexec := exec_entrySettle hrecent hdue
    rw [route_held (s := s.settled dt rest) hholder hlate, applySample_conflict (s := s.settled dt rest) hstate] at hexec
    obtain ⟨-, hlane, hid, hepoch, -⟩ := sampled_fields (s.settled dt rest) p e
    obtain ⟨hal, hn, he, -⟩ := sampled_rests (s.settled dt rest) p e hsil (.inl hstate)
    obtain ⟨hobase, hointake, hopos, honotices, hoeval, -, hocand⟩ :=
      offered_aside (s := (s.settled dt rest).sampled p e) e
    have hpos (q : Pos) := posAt_offerTriggered ((s.settled dt rest).sampled p e) e q
    have hother (q : Pos) (hq : q ≠ p) : (((s.settled dt rest).sampled p e).offerTriggered e).posAt q = s.posAt q :=
      (hpos q).trans (posAt_sampled_other (s.settled dt rest) p e hq)
    have hconflict := sampled_conflict (s.settled dt rest) p e hstate
    refine ⟨_, _, hexec, ?_, sampleShows_sampleOf (s.posAt p) e (s.setting .patm) (s.now + dt), ?_, ?_, fun q => ?_, hother,
      honotices.trans hn, hoeval.trans he, ?_, fun hk => ?_, ?_⟩
    · rw [hpos]
      exact sampled_sample (s.settled dt rest) p e
    · rw [hpos]
      exact hlane
    · rw [hpos]
      exact hal
    · by_cases hq : q = p
      · subst hq
        rw [hpos]
        exact ⟨hconflict.trans hstate.symm, hid, hepoch⟩
      · rw [hother q hq]
        exact ⟨rfl, rfl, rfl⟩
    · rw [hointake, sampled_intake]
      rfl
    · rw [hocand hk, sampled_candidates]
      rfl
    · exact hostSideSame_of_base (s := s.settled dt rest) (hobase.trans (sampled_base _ p e))
  case detached =>
    intro dt e rest p s hrecent hdue hholder hstate
    have hexec := exec_entrySettle hrecent hdue
    cases hlate : lateRepeat (s.posAt p) e (s.now + dt) with
    | true =>
      rw [route_late (s := s.settled dt rest) hholder hlate] at hexec
      exact ⟨_, hexec, rfl, rfl, hostSideSame_of_base (s := s.settled dt rest) rfl, fun _ => rfl⟩
    | false =>
      rw [route_held (s := s.settled dt rest) hholder hlate,
        applySample_detached (s := s.settled dt rest) hstate] at hexec
      obtain ⟨hobase, -, hopos, -, -, hocs, -⟩ := offered_aside (s := s.settled dt rest) e
      refine ⟨_, hexec, hopos, hocs, hostSideSame_of_base (s := s.settled dt rest) hobase, fun hk => ?_⟩
      rw [offerTriggered_other hk]
      rfl
  case drift =>
    intro dt e rest p ref i s hrecent hdue hholder hstate hlate hrun hkind href hi range gap d d' hlo hhi hlimit
    have hexec := exec_entrySettle hrecent hdue
    rw [route_held (s := s.settled dt rest) hholder hlate] at hexec
    have hcore := core_applySample (s := s.settled dt rest) (p := p) (e := e) hstate p
    have hrec := posAt_track_same (p := p) ((s.settled dt rest).fillSample p e) e.payload.kind e.firstArrival
    have hfill := posAt_fillSample_same (s.settled dt rest) p e
    have hrange : ((s.settled dt rest).fillSample p e).rangeOf p = range := rangeOf_fillSample (s.settled dt rest) p e
    have hroutine : e.payload.kind.routine = true := by obtain h | h := hkind <;> rw [h] <;> rfl
    have hset (w : SettingWord) : ((s.settled dt rest).fillSample p e).setting w = s.setting w := rfl
    have hop : ((s.settled dt rest).fillSample p e).control.op = .run := hrun
    generalize hf : (s.settled dt rest).fillSample p e = f at *
    have hfi : (f.posAt p).interval = some i := by rw [hfill]; exact hi
    have hfr : (f.posAt p).reference = some ref := by rw [hfill]; exact href
    have hfd : (f.posAt p).drift = d := by rw [hfill]; rfl
    have hfm : (f.posAt p).missed = (s.posAt p).missed := by rw [hfill]; rfl
    rw [gapped_within hfi (by rw [hrange]; exact clampTo_eq_self hlo hhi) hop hroutine] at hrec
    have hsampled : (s.settled dt rest).sampled p e = f.track p e.payload.kind e.firstArrival := by
      rw [← hf]
      rfl
    rw [hsampled] at hcore
    generalize f.track p e.payload.kind e.firstArrival = u at *
    have hreference : (u.posAt p).reference = some e.firstArrival := by rw [hrec]; rfl
    have hdeadline : (u.posAt p).deadline = some e.firstArrival := by
      rw [hrec]
      exact if_pos hop
    have hinterval : (u.posAt p).interval = ((f.gapTest p e.firstArrival).posAt p).interval := by rw [hrec]; rfl
    have hdrift : (u.posAt p).drift = ((f.gapTest p e.firstArrival).posAt p).drift := by rw [hrec]; rfl
    have hmissed : (u.posAt p).missed = ((f.gapTest p e.firstArrival).posAt p).missed := by rw [hrec]; rfl
    generalize ((s.settled dt rest).applySample p e).offerTriggered e = t at *
    have htinterval : (t.posAt p).interval = _ := (congrArg PosRec.interval hcore :).trans hinterval
    have htdrift : (t.posAt p).drift = _ := (congrArg PosRec.drift hcore :).trans hdrift
    have htmissed : (t.posAt p).missed = _ := (congrArg PosRec.missed hcore :).trans hmissed
    refine ⟨t, hexec, (congrArg PosRec.reference hcore :).trans hreference, (congrArg PosRec.deadline hcore :).trans hdeadline,
      fun hlong => ?_, fun hshort => ?_⟩
    · rw [htinterval, htdrift, htmissed, gapTest_long hfr hfi hlong, State.takeLongGap, posAt_modPos_same]
      refine ⟨hfi, hfd, ?_⟩
      dsimp only
      rw [hfm, satAdd, roundDiv, show 2 * (1000 * i) = 2000 * i by omega]
      rfl
    · obtain ⟨hm, hup, hdown, hmid⟩ := takeInterval_rows f p i gap
      simp only [hset, hrange, hfd] at hup hdown hmid
      rw [htinterval, htdrift, htmissed, gapTest_short hfr hfi hshort]
      have hd' : driftAfter d gap (1000 * (i : Int)) = d' := rfl
      rw [hd'] at hup hdown hmid
      have hpos : 0 < s.setting .driftLimit := by omega
      refine ⟨hm.trans hfm, fun h => ?_, fun h => ?_, fun h => ?_⟩
      · exact hup (by omega)
      · exact hdown (by omega) (by omega)
      · obtain ⟨h1, h2⟩ := hmid (by omega) (by omega)
        exact ⟨h1, h2.trans hfi⟩

end Sys2Proof.Machine
end

section
/-! A settled telegram of an ID that no position holds (R43, R46 to R53): a new entry of the candidate list, with an eviction when
it is full, or the update and the judgements of the entry there is. -/

namespace Sys2Proof.Machine
open Sys2Proof.Claim

/-! ### Requests for a coil (R61, R62) -/

/-- A request for the coil is queued. -/
def requested (q : List Request) (c : Coil) : Prop := ∃ r ∈ q, r.coil = c

theorem requested_takeRequest (q : List Request) (r : Request) (c : Coil) (h : r.coil = c ∨ requested q c) :
    requested (takeRequest q r) c := by
  have hkeep (hq : requested q c) : requested (takeRequest q r) c := by
    obtain ⟨x, hx, hc⟩ := hq
    unfold takeRequest
    split
    · by_cases hm : x.coil = r.coil
      · exact ⟨x.merge r, List.mem_map.mpr ⟨x, hx, if_pos hm⟩, (merge_coil x r).trans hc⟩
      · exact ⟨x, List.mem_map.mpr ⟨x, hx, if_neg hm⟩, hc⟩
    · exact ⟨x, List.mem_append_left _ hx, hc⟩
  obtain hr | hq := h
  · by_cases hnew : ∀ x ∈ q, x.coil ≠ r.coil
    · rw [takeRequest_new hnew]
      exact ⟨r, List.mem_append_right _ (List.mem_singleton_self r), hr⟩
    · push Not at hnew
      obtain ⟨x, hx, hc⟩ := hnew
      exact hkeep ⟨x, hx, hc.trans hr⟩
  · exact hkeep hq

theorem requested_foldl (cs : List Coil) (q : List Request) (u : Purpose) (tag : Byte) (c : Coil)
    (h : c ∈ cs ∨ requested q c) :
    requested (cs.foldl (fun q c => takeRequest q { coil := c, purpose := u, attempts := 0, tag := tag }) q) c := by
  induction cs generalizing q with
  | nil => exact h.resolve_left List.not_mem_nil
  | cons d cs ih =>
    refine ih _ ?_
    obtain hmem | hq := h
    · obtain rfl | hmem := List.mem_cons.mp hmem
      · exact Or.inr (requested_takeRequest q _ c (.inl rfl))
      · exact Or.inl hmem
    · exact Or.inr (requested_takeRequest q _ c (.inr hq))

/-- R44: an offered answer leaves the trigger queue. -/
theorem offerTriggered_queue (s : State) (e : RecentEntry) : (s.offerTriggered e).trigger.queue = s.trigger.queue := by
  unfold State.offerTriggered State.offerAnswer
  split
  · split <;> rfl
  · rfl

/-! ### Eviction (R48) -/

theorem oldestUnclaimed_none {cs : List Candidate} (h : ∀ x ∈ cs, x.claimed = true) : oldestUnclaimed cs = none := by
  induction cs with
  | nil => rfl
  | cons e es ih =>
    unfold oldestUnclaimed
    rw [ih fun x hx => h x (List.mem_cons_of_mem e hx)]
    exact if_pos (h e List.mem_cons_self)

/-- R48: an entry that is found is not CLAIMED. -/
theorem oldestUnclaimed_claimed {cs : List Candidate} {o : Candidate} (h : oldestUnclaimed cs = some o) :
    o.claimed = false := by
  induction cs generalizing o with
  | nil => cases h
  | cons e es ih =>
    unfold oldestUnclaimed at h
    split at h
    · split at h
      · cases h
      · next he =>
        obtain rfl := Option.some.inj h
        exact Bool.eq_false_iff.mpr he
    · next x hx =>
      split at h
      · obtain rfl := Option.some.inj h
        exact ih hx
      · next he =>
        split at h
        · obtain rfl := Option.some.inj h
          exact ih hx
        · obtain rfl := Option.some.inj h
          exact Bool.eq_false_iff.mpr he

/-- R48: the non-CLAIMED entry with the oldest last-heard time, the one nearest the head of equals. -/
theorem oldestUnclaimed_eq {pre post : List Candidate} {o : Candidate} (ho : o.claimed = false)
    (hpre : ∀ x ∈ pre, x.claimed = false → o.lastHeard < x.lastHeard)
    (hpost : ∀ x ∈ post, x.claimed = false → o.lastHeard ≤ x.lastHeard) :
    oldestUnclaimed (pre ++ o :: post) = some o := by
  induction pre with
  | nil =>
    rw [List.nil_append]
    unfold oldestUnclaimed
    split
    · exact if_neg (by rw [ho]; decide)
    · next x hx =>
      have hle := hpost x (oldestUnclaimed_mem hx) (oldestUnclaimed_claimed hx)
      rw [if_neg (by rw [ho]; decide), if_neg (Nat.not_lt.mpr hle)]
  | cons e es ih =>
    rw [List.cons_append]
    unfold oldestUnclaimed
    rw [ih fun x hx => hpre x (List.mem_cons_of_mem e hx)]
    dsimp only
    cases he : e.claimed with
    | true => rfl
    | false =>
      rw [if_neg (by decide), if_pos (hpre e List.mem_cons_self he)]

/-- Entries of one list differ in their IDs. -/
theorem ne_of_split {pre post : List Candidate} {o x : Candidate} (h : ((pre ++ o :: post).map Candidate.id).Nodup)
    (hx : x ∈ pre ++ post) : x.id ≠ o.id := by
  rw [List.map_append, List.map_cons, List.nodup_middle, ← List.map_append, List.nodup_cons] at h
  exact fun e => h.1 (e ▸ List.mem_map_of_mem hx)

theorem filter_split {pre post : List Candidate} {o : Candidate} (h : ((pre ++ o :: post).map Candidate.id).Nodup) :
    (pre ++ o :: post).filter (fun x => x.id != o.id) = pre ++ post := by
  have hkeep (l : List Candidate) (hl : ∀ x ∈ l, x ∈ pre ++ post) : l.filter (fun x => x.id != o.id) = l :=
    List.filter_eq_self.mpr fun x hx => bne_iff_ne.mpr (ne_of_split h (hl x hx))
  rw [List.filter_append, List.filter_cons, if_neg (by simp), hkeep pre fun x hx => List.mem_append_left _ hx,
    hkeep post fun x hx => List.mem_append_right _ hx]

section
variable {cs pre post : List Candidate} {e o : Candidate}

theorem insertCandidate_room (h : cs.length < 32) : insertCandidate cs e = cs ++ [e] := if_pos h

theorem insertCandidate_claimed (h : 32 ≤ cs.length) (hall : ∀ x ∈ cs, x.claimed = true) : insertCandidate cs e = cs := by
  unfold insertCandidate
  rw [oldestUnclaimed_none hall]
  exact if_neg (Nat.not_lt.mpr h)

theorem insertCandidate_evicts (h : 32 ≤ (pre ++ o :: post).length) (hnodup : ((pre ++ o :: post).map Candidate.id).Nodup)
    (ho : oldestUnclaimed (pre ++ o :: post) = some o) : insertCandidate (pre ++ o :: post) e = pre ++ post ++ [e] := by
  unfold insertCandidate
  rw [ho]
  dsimp only
  rw [filter_split hnodup]
  exact if_neg (Nat.not_lt.mpr h)

/-- The entry of the ID is replaced in its place. -/
theorem map_split (d : Candidate) (hnodup : ((pre ++ o :: post).map Candidate.id).Nodup) :
    (pre ++ o :: post).map (fun x => if x.id = o.id then d else x) = pre ++ d :: post := by
  have hkeep (l : List Candidate) (hl : ∀ x ∈ l, x ∈ pre ++ post) :
      l.map (fun x => if x.id = o.id then d else x) = l :=
    (List.map_congr_left fun x hx => if_neg (ne_of_split hnodup (hl x hx))).trans (List.map_id l)
  rw [List.map_append, List.map_cons, if_pos rfl, hkeep pre fun x hx => List.mem_append_left _ hx,
    hkeep post fun x hx => List.mem_append_right _ hx]

theorem find_split (hnodup : ((pre ++ o :: post).map Candidate.id).Nodup) :
    (pre ++ o :: post).find? (fun e => e.id == o.id) = some o := by
  rw [List.find?_append, List.find?_eq_none.mpr fun x hx => ?_, List.find?_cons]
  · simp
  · simpa using ne_of_split hnodup (List.mem_append_left post hx)

end

/-! ### The routing to the candidate list (R43) -/

section
variable {s : State} {e : RecentEntry}

theorem route_unheld (h : s.holder e.payload.id = none) : s.route e = (s.receiveCandidate e).offerTriggered e := by
  rw [State.route, h]

theorem receiveCandidate_new (h : s.candidate e.payload.id = none) : s.receiveCandidate e =
    { s with candidates := insertCandidate s.candidates (newCandidate e (s.answered e.payload.id)) } := by
  rw [State.receiveCandidate, h]

/-- R47, R51, R52: an entry after the telegram and the judgements. -/
def State.judgedEntry (s : State) (c : Candidate) (e : RecentEntry) : Candidate :=
  (c.update e).judged (s.setting .rollingThreshold) (s.setting .persistSpan)

/-- R51: the telegram makes the entry PERSISTENT. -/
def State.persists (s : State) (c : Candidate) (e : RecentEntry) : Bool :=
  (c.update e).becomesPersistent (s.setting .rollingThreshold) (s.setting .persistSpan)

theorem receiveCandidate_known {pre post : List Candidate} {c : Candidate} (h : s.candidates = pre ++ c :: post)
    (hnodup : (s.candidates.map Candidate.id).Nodup) (hid : c.id = e.payload.id) : s.receiveCandidate e =
      if s.persists c e then
        ({ s with candidates := pre ++ s.judgedEntry c e :: post } : State).announcePersistent (s.judgedEntry c e)
      else { s with candidates := pre ++ s.judgedEntry c e :: post } := by
  rw [h] at hnodup
  have hfound : s.candidate e.payload.id = some c := by
    rw [State.candidate, h, ← hid]
    exact find_split hnodup
  have hlist : s.candidates.map (fun x => if x.id = c.id then s.judgedEntry c e else x) =
      pre ++ s.judgedEntry c e :: post := by
    rw [h]
    exact map_split _ hnodup
  rw [State.receiveCandidate, hfound, ← hlist]
  rfl

/-- R53: the notice of a PERSISTENT entry and its requests. -/
theorem announcePersistent_aside (d : Candidate) : (s.announcePersistent d).base = s.base ∧
    (s.announcePersistent d).positions = s.positions ∧ (s.announcePersistent d).candidates = s.candidates ∧
    (s.announcePersistent d).intake = s.intake := by
  have heach (cs : List Coil) (u : State) : (u.offerEach cs .locate 0).positions = u.positions ∧
      (u.offerEach cs .locate 0).candidates = u.candidates ∧ (u.offerEach cs .locate 0).intake = u.intake := by
    unfold State.offerEach
    induction cs generalizing u with
    | nil => exact ⟨rfl, rfl, rfl⟩
    | cons c cs ih => exact ih (u.offer { coil := c, purpose := .locate, attempts := 0, tag := 0 })
  refine ⟨by simp, ?_⟩
  unfold State.announcePersistent
  dsimp only
  split
  · obtain ⟨hp, hc, hi⟩ := heach _ (s.notify .candidatePersistent none 0 d.id (BitVec.ofNat 32 (laneNum d.strongest)))
    rw [hp, hc, hi]
    exact ⟨notify_positions .., notify_candidates .., notify_intake ..⟩
  · exact ⟨notify_positions .., notify_candidates .., notify_intake ..⟩

/-- R53: in RUN a request is queued for each available coil that wants one. -/
theorem announcePersistent_requests {d : Candidate} {k : Coil} (hrun : s.control.op = .run) (ha : s.available k = true)
    (hw : s.wantsLocate d.strongest k = true) : requested (s.announcePersistent d).trigger.queue k := by
  generalize hu : s.notify .candidatePersistent none 0 d.id (BitVec.ofNat 32 (laneNum d.strongest)) = u
  have hbase : u.base = s.base := by rw [← hu]; simp
  have hpos : u.positions = s.positions := by rw [← hu]; simp
  have hop : u.control.op = .run := (congrArg Base.op hbase :).trans hrun
  have hsnoop : u.snoop = s.snoop := congrArg Base.snoop hbase
  have href : u.control.refTrl = s.control.refTrl := congrArg Base.refTrl hbase
  have hlayout : u.layout = s.layout := by
    unfold State.layout State.copy
    rw [hsnoop]
  have havail : u.available k = s.available k := by
    unfold State.available
    rw [hlayout, href]
  have hwants : u.wantsLocate d.strongest k = s.wantsLocate d.strongest k := by
    unfold State.wantsLocate State.posAt
    rw [hlayout, hpos]
  have hcall : s.announcePersistent d = u.offerEach
      (coilsInOrder.filter (fun c => u.available c && u.wantsLocate d.strongest c)) .locate 0 := by
    unfold State.announcePersistent
    dsimp only
    rw [hu, if_pos hop]
  rw [hcall, offerEach_run _ _ hop fun c hc => by simp only [List.mem_filter, Bool.and_eq_true] at hc; exact hc.2.1]
  refine requested_foldl _ _ _ _ k (.inl ?_)
  rw [List.mem_filter, havail, hwants, ha, hw]
  exact ⟨mem_coilsInOrder k, rfl⟩

end

/-! ### The judgements (R51, R52) -/

section
variable (s : State) (c : Candidate) (e : RecentEntry)

/-- The judgements write the two flags. -/
theorem judged_flags (x : Candidate) (n span : Nat) : ∃ a b, x.judged n span = { x with persistent := a, stationary := b } := by
  unfold Candidate.judged
  split
  · exact ⟨true, false, rfl⟩
  · split
    · exact ⟨x.persistent, true, rfl⟩
    · exact ⟨x.persistent, x.stationary, rfl⟩

theorem persists_iff : s.persists c e = true ↔ c.persistent = false ∧
    s.setting .rollingThreshold ≤ (s.judgedEntry c e).rolling ∧
    1000 * s.setting .persistSpan ≤ (s.judgedEntry c e).lastHeard - (s.judgedEntry c e).firstHeard := by
  obtain ⟨a, b, h⟩ := judged_flags (c.update e) (s.setting .rollingThreshold) (s.setting .persistSpan)
  rw [State.judgedEntry, h, State.persists, Candidate.becomesPersistent, Bool.and_eq_true, Bool.and_eq_true,
    Bool.not_eq_true', decide_eq_true_iff, Candidate.spanMet, decide_eq_true_iff, and_assoc]
  exact Iff.rfl

theorem judgedEntry_persists (h : s.persists c e = true) :
    (s.judgedEntry c e).persistent = true ∧ (s.judgedEntry c e).stationary = false := by
  have heq : s.judgedEntry c e = { c.update e with persistent := true, stationary := false } := if_pos h
  rw [heq]
  exact ⟨rfl, rfl⟩

theorem judgedEntry_stays (h : ¬ s.persists c e = true) :
    (s.judgedEntry c e).persistent = c.persistent ∧
      ((s.judgedEntry c e).stationary = true ↔ (c.stationary = true ∧ e.payload.motion = false) ∨
        (c.persistent = false ∧ (s.judgedEntry c e).rolling = 0 ∧
          s.setting .rollingThreshold ≤ (s.judgedEntry c e).still ∧
          1000 * s.setting .persistSpan ≤ (s.judgedEntry c e).lastHeard - (s.judgedEntry c e).firstHeard)) := by
  have heq : s.judgedEntry c e = if (c.update e).becomesStationary (s.setting .rollingThreshold) (s.setting .persistSpan)
      then { c.update e with stationary := true } else c.update e := if_neg h
  have hstat : (c.update e).becomesStationary (s.setting .rollingThreshold) (s.setting .persistSpan) = true ↔
      (c.stationary && !(e.payload.motion)) = false ∧ c.persistent = false ∧ (c.update e).rolling = 0 ∧
        s.setting .rollingThreshold ≤ (c.update e).still ∧
        1000 * s.setting .persistSpan ≤ (c.update e).lastHeard - (c.update e).firstHeard := by
    have hflags : (c.update e).stationary = (c.stationary && !(e.payload.motion)) ∧
      (c.update e).persistent = c.persistent := ⟨rfl, rfl⟩
    obtain ⟨hs, hp⟩ := hflags
    rw [Candidate.becomesStationary, hs, hp, Bool.and_eq_true, Bool.and_eq_true, Bool.and_eq_true, Bool.and_eq_true,
      Bool.not_eq_true', Bool.not_eq_true', decide_eq_true_iff, Candidate.spanMet, decide_eq_true_iff, beq_iff_eq]
    simp only [and_assoc]
  have hleft : (c.stationary && !(e.payload.motion)) = true ↔ c.stationary = true ∧ e.payload.motion = false := by simp
  rw [heq]
  split
  · next hyes =>
    obtain ⟨-, hrow⟩ := hstat.mp hyes
    exact ⟨rfl, fun _ => .inr hrow, fun _ => rfl⟩
  · next hno =>
    refine ⟨rfl, fun hs => .inl (hleft.mp hs), fun hrow => ?_⟩
    by_contra hs
    obtain hl | hr := hrow
    · exact hs (hleft.mpr hl)
    · exact hno (hstat.mpr ⟨Bool.eq_false_iff.mpr hs, hr⟩)

end

/-- Settles O14: a new entry (`insertCandidate_*`), or the update of the entry with its judgements. -/
theorem unheldTelegramMakesACandidate : Obligations.UnheldTelegramMakesACandidate := by
  refine ⟨?new, ?known⟩
  case new =>
    intro dt e rest s hrecent hdue hholder hnone
    have hexec := exec_entrySettle hrecent hdue
    rw [route_unheld (s := s.settled dt rest) hholder, receiveCandidate_new (s := s.settled dt rest) hnone] at hexec
    generalize hl : insertCandidate (s.settled dt rest).candidates (newCandidate e ((s.settled dt rest).answered
      e.payload.id)) = inserted at hexec
    have hl' : insertCandidate s.candidates (newCandidate e (s.answered e.payload.id)) = inserted := hl
    generalize hv : ({ s.settled dt rest with candidates := inserted } : State) = v at hexec
    have hlist : v.candidates = insertCandidate s.candidates (newCandidate e (s.answered e.payload.id)) := by
      rw [hl', ← hv]
    obtain ⟨hbase, hintake, hpos, -, -, hcs, hcand⟩ := offered_aside (s := v) e
    have hvbase : v.base = (s.settled dt rest).base := by rw [← hv]; rfl
    have hboth {l : List Candidate} (h : insertCandidate s.candidates (newCandidate e (s.answered e.payload.id)) = l) :
        (v.offerTriggered e).candidates.map unanswered = l.map unanswered ∧
          (e.payload.kind ≠ .triggered → (v.offerTriggered e).candidates = l) := by
      rw [h] at hlist
      exact ⟨hcs.trans (by rw [hlist]), fun hk => (hcand hk).trans hlist⟩
    refine ⟨_, newCandidate e (s.answered e.payload.id), hexec, ?_, ?_, hostSideSame_of_base (s := s.settled dt rest)
      (hbase.trans hvbase), rfl, rfl, rfl, rfl, rfl, rfl, rfl, rfl, rfl, rfl, rfl, rfl, rfl, fun l => ⟨?_, ?_⟩, fun hk => ?_,
      fun hroom => hboth (insertCandidate_room hroom), fun hfull hall => hboth (insertCandidate_claimed hfull hall), ?_⟩
    · rw [hintake, ← hv]
      rfl
    · rw [hpos, ← hv]
      rfl
    · exact Lanes.get_tabulate _ _
    · refine (Lanes.get_tabulate _ _).trans ?_
      cases e.heard.get l <;> rfl
    · rw [offerTriggered_other hk, ← hv]
      rfl
    · intro pre o post hsplit hfull hok ho hpre hpost
      obtain ⟨-, hnodup, -⟩ := hok
      rw [hsplit] at hnodup hfull
      refine hboth ?_
      rw [hsplit]
      exact insertCandidate_evicts hfull hnodup (oldestUnclaimed_eq ho hpre hpost)
  case known =>
    intro dt e rest pre post c s hrecent hdue hholder hok hsplit hid
    obtain ⟨-, hnodup, -⟩ := hok
    have hexec := exec_entrySettle hrecent hdue
    rw [route_unheld (s := s.settled dt rest) hholder,
      receiveCandidate_known (s := s.settled dt rest) hsplit hnodup hid] at hexec
    generalize hd : (s.settled dt rest).judgedEntry c e = d at hexec
    have hd' : s.judgedEntry c e = d := hd
    generalize hv : ({ s.settled dt rest with candidates := pre ++ d :: post } : State) = v at hexec
    generalize hw : (if (s.settled dt rest).persists c e then v.announcePersistent d else v) = w at hexec
    have hvsame : v.base = (s.settled dt rest).base ∧ v.positions = s.positions ∧ v.candidates = pre ++ d :: post ∧
        v.intake.recent = rest := by
      rw [← hv]
      exact ⟨rfl, rfl, rfl, rfl⟩
    obtain ⟨hvbase, hvpos, hvcand, hvrecent⟩ := hvsame
    have hwsame : w.base = v.base ∧ w.positions = v.positions ∧ w.candidates = v.candidates ∧ w.intake = v.intake := by
      rw [← hw]
      split
      · exact announcePersistent_aside d
      · exact ⟨rfl, rfl, rfl, rfl⟩
    obtain ⟨hwbase, hwpos, hwcand, hwintake⟩ := hwsame
    obtain ⟨hbase, hintake, hpos, hnotices, -, hcs, hcand⟩ := offered_aside (s := w) e
    obtain ⟨a, b, hflags⟩ := judged_flags (c.update e) (s.setting .rollingThreshold) (s.setting .persistSpan)
    have hfields : d = { c.update e with persistent := a, stationary := b } := hd'.symm.trans hflags
    have hiff := persists_iff s c e
    rw [hd'] at hiff
    refine ⟨_, d, hexec, ?_, ?_, hostSideSame_of_base (s := s.settled dt rest) (hbase.trans (hwbase.trans hvbase)), ?_,
      fun hk => ?_, ?_, ?_, ?_, ?_, ?_, ?_, ?_, ?_, ?_, ?_, ?_, fun l => ?_, ?_⟩
    · rw [hintake, hwintake, hvrecent]
    · rw [hpos, hwpos, hvpos]
    · rw [hcs, hwcand, hvcand]
    · rw [hcand hk, hwcand, hvcand]
    case refine_16 =>
      have hget : d.hits.get l = (if c.countsLane e l then c.hits.get l + 1 else c.hits.get l) ∧
          d.sums.get l = (if c.countsLane e l then c.sums.get l + ((e.heard.get l).map BitVec.toNat).getD 0
            else c.sums.get l) := by
        rw [hfields]
        refine ⟨Lanes.get_tabulate _ _, (Lanes.get_tabulate _ _).trans ?_⟩
        cases e.heard.get l <;> rfl
      have hcounts : c.countsLane e l = true ↔ (e.heard.get l).isSome = true ∧ c.hits.get l < 255 := by
        rw [Candidate.countsLane, Bool.and_eq_true, decide_eq_true_iff]
        exact Iff.rfl
      obtain ⟨hhits, hsums⟩ := hget
      rw [hhits, hsums]
      refine ⟨fun hyes => ?_, fun hno => ?_⟩
      · rw [if_pos (hcounts.mpr hyes), if_pos (hcounts.mpr hyes)]
        exact ⟨rfl, rfl⟩
      · rw [if_neg (mt hcounts.mp hno), if_neg (mt hcounts.mp hno)]
        exact ⟨rfl, rfl⟩
    case refine_17 =>
      refine ⟨fun hp => ?_, fun hp => ?_⟩
      · have hyes : s.persists c e = true := hiff.mpr hp
        obtain ⟨hpersistent, hstationary⟩ := judgedEntry_persists s c e hyes
        rw [hd'] at hpersistent hstationary
        refine ⟨hpersistent, hstationary, fun hrun k ha hwants => ?_⟩
        have hann : w = v.announcePersistent d := hw.symm.trans (if_pos hyes)
        have hreq : requested (v.announcePersistent d).trigger.queue k :=
          announcePersistent_requests (by rw [← hv]; exact hrun) (by rw [← hv]; exact ha) (by rw [← hv]; exact hwants)
        rw [offerTriggered_queue, hann]
        exact hreq
      · have hno : ¬ s.persists c e = true := mt hiff.mp hp
        obtain ⟨hpersistent, hstationary⟩ := judgedEntry_stays s c e hno
        rw [hd'] at hpersistent hstationary
        refine ⟨hpersistent, hstationary, fun hk => ?_⟩
        have hstay : w = v := hw.symm.trans (if_neg hno)
        rw [offerTriggered_other hk, hstay, ← hv]
        exact ⟨rfl, rfl⟩
    case refine_13 =>
      rw [hfields]
      unfold Candidate.update
      cases e.payload.temp <;> rfl
    all_goals
      subst hfields
      rfl

end Sys2Proof.Machine
end

section
/-! The settings words that are taken (R175): the clamp and the recomputation position by position (R90, R101), the entry into
RUN (R161), and each word's owner. -/

namespace Sys2Proof.Machine
open Sys2Proof.Claim

/-! ### The recomputation of a deadline (R96, R97, R101) -/

theorem deadlineReached_eq {s : State} {r : PosRec} {e : Nat} (h : r.interval = some e) : s.deadlineReached r =
    r.deadline.any (fun b => decide (16 * b + 1000 * s.setting .silenceMultiple * e ≤ 16 * s.now)) := by
  unfold State.deadlineReached
  rw [h]
  cases r.deadline with
  | none => rfl
  | some b =>
    have hmul : 1000 * s.setting .silenceMultiple * e = 8 * (125 * s.setting .silenceMultiple * e) := by
      rw [Nat.mul_assoc, Nat.mul_assoc, ← Nat.mul_assoc 8]
    have heighth (x y z : Nat) : 2 * y + x ≤ 2 * z ↔ 16 * y + 8 * x ≤ 16 * z := by omega
    dsimp only [Option.any]
    rw [hmul]
    exact decide_eq_decide.mpr (heighth _ b s.now)

/-- R96, R97: an expiry that the recomputed deadline asks for, with an interval that has just been written. -/
theorem recomputed_expireIfReached {s : State} {p : Pos} {e : Nat} {r : PosRec}
    (hr : s.posAt p = { r with interval := some e }) :
    recomputed r ((s.expireIfReached p).posAt p) (s.setting .silenceMultiple) e s.now := by
  have hgone := deadlineReached_eq (s := s) (r := s.posAt p) (e := e) (by rw [hr])
  have hfields : (s.posAt p).deadline = r.deadline ∧ (s.posAt p).state = r.state ∧ (s.posAt p).alerts = r.alerts := by
    rw [hr]
    exact ⟨rfl, rfl, rfl⟩
  obtain ⟨hdeadline, hstate, halerts⟩ := hfields
  rw [hdeadline] at hgone
  unfold recomputed
  dsimp only
  rw [← hgone]
  have hkinds (k : AlertKind) (hk : k ≠ .silent) : ((s.expireIfReached p).posAt p).alerts.get k = r.alerts.get k := by
    have hkept := (expireIfReached_tracks s p).alerts p k hk
    unfold State.alertAt at hkept
    rw [hkept, halerts]
  cases hreached : s.deadlineReached (s.posAt p) with
  | false =>
    have hstay : s.expireIfReached p = s := if_neg (by rw [hreached]; decide)
    refine ⟨?_, fun _ => by rw [hstay, halerts], hkinds⟩
    rw [hstay, hr]
    simp
  | true =>
    have hgo : s.expireIfReached p = s.expire p := if_pos hreached
    by_cases hb : r.state = .bound
    · have hpos := posAt_expire_bound (hstate.trans hb)
      refine ⟨?_, fun h => ?_, hkinds⟩
      · rw [hgo, hpos, hr, hb]
        simp
      · rw [hb] at h
        cases h
    · have hpos : (s.expire p).posAt p = { s.posAt p with deadline := none } := by
        rw [expire_unbound (by rw [hstate]; exact hb), posAt_modPos_same]
      have hlost : (r.state == BindState.bound) = false := beq_eq_false_iff_ne.mpr hb
      refine ⟨?_, fun _ => ?_, hkinds⟩
      · rw [hgo, hpos, hr, hlost]
        simp
      · rw [hgo, hpos]
        exact halerts

/-- R90, R101: a changed interval, with the deadline recomputed. -/
theorem recomputed_setInterval {s : State} {p : Pos} {e : Nat} (h : (s.posAt p).interval ≠ some e) :
    recomputed (s.posAt p) ((s.setInterval p e).posAt p) (s.setting .silenceMultiple) e s.now := by
  rw [State.setInterval, if_neg h]
  exact recomputed_expireIfReached (s := s.modPos p (fun r => { r with interval := some e })) (posAt_modPos_same ..)

/-! ### Position by position -/

/-- A sweep over the positions, each of which is touched by its own step only, seen from one position. -/
theorem posAt_foldl_each {f : State → Pos → State} (hf : ∀ s p, Tracks s (f s p))
    (hother : ∀ s p q, q ≠ p → (f s p).posAt q = s.posAt q) (s : State) (p : Pos) :
    ∃ u, Tracks s u ∧ u.posAt p = s.posAt p ∧ (positionsInOrder.foldl f s).posAt p = (f u p).posAt p := by
  have hlist (l : List Pos) (hl : l.Nodup) (s : State) : (p ∉ l → (l.foldl f s).posAt p = s.posAt p) ∧
      (p ∈ l → ∃ u, Tracks s u ∧ u.posAt p = s.posAt p ∧ (l.foldl f s).posAt p = (f u p).posAt p) := by
    induction l generalizing s with
    | nil => exact ⟨fun _ => rfl, fun h => absurd h List.not_mem_nil⟩
    | cons q l ih =>
      obtain ⟨hq, hl⟩ := List.nodup_cons.mp hl
      obtain ⟨hout, hin⟩ := ih hl (f s q)
      refine ⟨fun h => ?_, fun h => ?_⟩
      · rw [List.mem_cons, not_or] at h
        exact (hout h.2).trans (hother s q p h.1)
      · by_cases hpq : p = q
        · subst hpq
          exact ⟨s, Tracks.refl s, rfl, hout hq⟩
        · obtain ⟨u, hu, hup, hfold⟩ := hin ((List.mem_cons.mp h).resolve_left hpq)
          exact ⟨u, (hf s q).trans hu, hup.trans (hother s q p hpq), hfold⟩
  exact (hlist positionsInOrder (List.nodup_finRange 26) s).2 (List.mem_finRange p)

theorem posAt_expireIfReached_other (s : State) (p q : Pos) (h : q ≠ p) : (s.expireIfReached p).posAt q = s.posAt q :=
  (expireIfReached_arrives s).others q h

theorem posAt_clampInterval_other (s : State) (p q : Pos) (h : q ≠ p) : (s.clampInterval p).posAt q = s.posAt q :=
  (clampInterval_arrives s).others q h

theorem Tracks.copy {s t : State} (h : Tracks s t) (w : SettingWord) : t.copy w = s.copy w := by
  unfold State.copy
  rw [h.snoop]

theorem Tracks.setting {s t : State} (h : Tracks s t) (w : SettingWord) : t.setting w = s.setting w := by
  unfold State.setting
  rw [h.copy]

theorem Tracks.lifted {s t : State} (h : Tracks s t) (p : Pos) : t.lifted p = s.lifted p := by
  unfold State.lifted State.layout
  rw [h.copy, h.copy]

theorem rangeWordOf_congr {s t : State} {p : Pos} (hl : t.lifted p = s.lifted p)
    (hs : (t.posAt p).sample = (s.posAt p).sample) (hh : (t.posAt p).handedMotion = (s.posAt p).handedMotion) :
    rangeWordOf t p = rangeWordOf s p := by
  unfold rangeWordOf
  rw [hl, hs, hh]

theorem Tracks.rangeWordOf {s t : State} (h : Tracks s t) (p : Pos) : rangeWordOf t p = rangeWordOf s p := by
  obtain ⟨-, -, hsample, -, -, hhanded, -⟩ := fields_of_untracked (h.fields p)
  exact rangeWordOf_congr (h.lifted p) hsample hhanded

/-- R89, R90: the clamp is that of the word of the range. -/
theorem clampTo_rangeOf (s : State) (p : Pos) (e : Nat) :
    clampTo (s.rangeOf p) e = clampedBy (s.copy (rangeWordOf s p)) e := by
  have hrolls : (s.posAt p).rolls = ((s.posAt p).sample.map Sample.motion).getD ((s.posAt p).handedMotion.getD true) := by
    unfold PosRec.rolls
    cases (s.posAt p).sample <;> rfl
  have hword : (if (!(s.lifted p) && (s.posAt p).rolls) = true then SettingWord.rollingRange else .parkedRange) =
      rangeWordOf s p := by
    unfold rangeWordOf
    rw [← hrolls]
    cases s.lifted p <;> cases (s.posAt p).rolls <;> rfl
  unfold State.rangeOf State.rangeFor
  dsimp only
  rw [hword]
  rfl

/-- R90: what the clamp of every interval does to one position. -/
theorem posAt_clampAll (s : State) (p : Pos) :
    ((s.posAt p).interval = none → s.clampAll.posAt p = s.posAt p) ∧
      ∀ e, (s.posAt p).interval = some e →
        (clampedBy (s.copy (rangeWordOf s p)) e = e → s.clampAll.posAt p = s.posAt p) ∧
        (clampedBy (s.copy (rangeWordOf s p)) e ≠ e →
          recomputed (s.posAt p) (s.clampAll.posAt p) (s.setting .silenceMultiple)
            (clampedBy (s.copy (rangeWordOf s p)) e) s.now) := by
  obtain ⟨u, hu, hup, hfold⟩ := posAt_foldl_each clampInterval_tracks posAt_clampInterval_other s p
  have hclamp (e : Nat) : clampTo (u.rangeOf p) e = clampedBy (s.copy (rangeWordOf s p)) e := by
    rw [clampTo_rangeOf, hu.rangeWordOf, hu.copy]
  change (_ → (positionsInOrder.foldl State.clampInterval s).posAt p = _) ∧ ∀ e, _ →
    (_ → (positionsInOrder.foldl State.clampInterval s).posAt p = _) ∧
    (_ → recomputed _ ((positionsInOrder.foldl State.clampInterval s).posAt p) _ _ _)
  rw [hfold]
  unfold State.clampInterval
  rw [hup]
  refine ⟨fun hnone => ?_, fun e he => ?_⟩
  · rw [hnone]
    exact hup
  · rw [he]
    dsimp only
    rw [hclamp]
    refine ⟨fun hsame => ?_, fun hmoved => ?_⟩
    · rw [hsame, State.setInterval, if_pos (by rw [hup]; exact he), hup]
    · have hrec := recomputed_setInterval (s := u) (p := p) (e := clampedBy (s.copy (rangeWordOf s p)) e)
        (by rw [hup, he]; exact fun h => hmoved (Option.some.inj h).symm)
      rw [hup, hu.setting, hu.now] at hrec
      exact hrec

/-- R101: what the recomputation of every deadline does to one position. -/
theorem posAt_recomputeDeadlines (s : State) (p : Pos) :
    ((s.posAt p).interval = none → s.recomputeDeadlines.posAt p = s.posAt p) ∧
      ∀ e, (s.posAt p).interval = some e →
        recomputed (s.posAt p) (s.recomputeDeadlines.posAt p) (s.setting .silenceMultiple) e s.now := by
  obtain ⟨u, hu, hup, hfold⟩ := posAt_foldl_each expireIfReached_tracks posAt_expireIfReached_other s p
  change (_ → (positionsInOrder.foldl State.expireIfReached s).posAt p = _) ∧ ∀ e, _ →
    recomputed _ ((positionsInOrder.foldl State.expireIfReached s).posAt p) _ _ _
  rw [hfold]
  refine ⟨fun hnone => ?_, fun e he => ?_⟩
  · have hno : u.deadlineReached (u.posAt p) = false := by
      rw [hup]
      unfold State.deadlineReached
      rw [hnone]
      cases (s.posAt p).deadline <;> rfl
    rw [State.expireIfReached, if_neg (by rw [hno]; decide), hup]
  · have hrec := recomputed_expireIfReached (s := u) (p := p) (e := e) (r := s.posAt p) (by rw [hup, ← he])
    rw [hu.setting, hu.now] at hrec
    exact hrec

/-! ### The entry into RUN (R161) -/

/-- R183: the parked notices go to the ring. -/
theorem writeParked_shape (s : State) : ∃ n p, s.writeParked = { s with
    notices := n, path := p, control := { s.control with parked := [], parkedWritten := true } } := by
  have hring (l : List Notice) (u : State) : ∃ n p, l.foldl State.placeNotice u = { u with notices := n, path := p } := by
    induction l generalizing u with
    | nil => exact ⟨u.notices, u.path, rfl⟩
    | cons x l ih =>
      obtain ⟨n, p, h⟩ := ih (u.placeNotice x)
      rw [List.foldl_cons, h, placeNotice_shape]
      exact ⟨n, p, rfl⟩
  unfold State.writeParked
  exact hring _ _

theorem offerEach_shape (s : State) (cs : List Coil) (u : Purpose) (t : Byte) :
    ∃ q, s.offerEach cs u t = { s with trigger := { s.trigger with queue := q } } := by
  unfold State.offerEach
  induction cs generalizing s with
  | nil => exact ⟨s.trigger.queue, rfl⟩
  | cons c cs ih =>
    obtain ⟨q, h⟩ := ih (s.offer { coil := c, purpose := u, attempts := 0, tag := t })
    exact ⟨q, h⟩

theorem offerOnEntry_shape (s : State) : ∃ q, s.offerOnEntry = { s with trigger := { s.trigger with queue := q } } := by
  have hrecheck (v : State) : ∃ q, (if v.control.refIgn then v.offerRechecks else v) =
      { v with trigger := { v.trigger with queue := q } } := by
    split
    · exact offerEach_shape ..
    · exact ⟨v.trigger.queue, rfl⟩
  have hattach : ∃ q, (if s.control.refTrl then s.offerAttaches else s) =
      { s with trigger := { s.trigger with queue := q } } := by
    split
    · exact offerEach_shape ..
    · exact ⟨s.trigger.queue, rfl⟩
  obtain ⟨q, hq⟩ := hattach
  unfold State.offerOnEntry
  dsimp only
  rw [hq]
  obtain ⟨q', hq'⟩ := hrecheck { s with trigger := { s.trigger with queue := q } }
  exact ⟨q', hq'⟩

/-- R161: the deadline of a record at the entry into RUN. -/
def PosRec.armed (r : PosRec) (now : Time) : PosRec :=
  { r with deadline := if r.state.holdsId && r.state != .detached then some now else r.deadline }

theorem ready_shape (s : State) : s.ready = { s with
    intake := s.followEnables.clearQuietCounts.intake
    positions := posTable (fun x => (s.posAt x).armed s.now)
    sweep := { s.sweep with timer := some (s.now + 1000 * s.setting .sweepPeriod) } } := rfl

/-- What the entry into RUN writes: the parked notices go to the ring, the lanes, the deadlines, the sweep timer and the
trigger queue. -/
theorem enterRun_shape (s : State) : ∃ n p i q, s.enterRun = { s with
    notices := n, path := p, intake := i
    positions := posTable (fun x => (s.posAt x).armed s.now)
    trigger := { s.trigger with queue := q }
    sweep := { s.sweep with timer := some (s.now + 1000 * s.setting .sweepPeriod) }
    control := { s.control with op := .run, parked := [], parkedWritten := true } } := by
  obtain ⟨n, p, hparked⟩ := writeParked_shape s.running
  obtain ⟨q, hoffer⟩ := offerOnEntry_shape s.running.writeParked.ready
  rw [enterRun_eq, hoffer, ready_shape, hparked]
  exact ⟨n, p, _, q, rfl⟩

end Sys2Proof.Machine
end

section
/-! The settings words that are taken (R175), word by word: the words that are read when they are used, the lane-enable mask,
the ranges, the drift limit, the silence multiple, the escalation words, the periods, and a word in LOADING. -/

namespace Sys2Proof.Machine
open Sys2Proof.Claim

/-! ### A setting written and taken (R155, R175) -/

/-- R175: the state in which a settings word has been written and its copy set. -/
def State.copied (s : State) (dt : Nat) (w : SettingWord) (h : HostWord) (v : Word) : State :=
  ((s.elapse dt).carryWrite (s.windowBase + w.offset) [h]).setCopy w v

/-- R155: the loaded flag after a host write of a word. -/
def State.marked (s : State) (w : SettingWord) (h : HostWord) : State := if h.enables = 15 then s.markLoaded w else s

theorem marked_shape (s : State) (w : SettingWord) (h : HostWord) : s.marked w h =
    { s with control := { s.control with loaded := (s.marked w h).control.loaded } } := by
  unfold State.marked
  split <;> rfl

theorem isLoaded_marked_same (s : State) (w : SettingWord) (h : HostWord) :
    (s.marked w h).isLoaded w = (s.isLoaded w || h.enables == 15) := by
  unfold State.marked
  split
  · next h15 => rw [isLoaded_markLoaded_same, beq_iff_eq.mpr h15, Bool.or_true]
  · next h15 => rw [beq_eq_false_iff_ne.mpr h15, Bool.or_false]

theorem isLoaded_marked_other (s : State) {w x : SettingWord} (h : HostWord) (hx : x ≠ w) :
    (s.marked w h).isLoaded x = s.isLoaded x := by
  unfold State.marked
  split
  · exact isLoaded_markLoaded_other s hx
  · rfl

@[simp] theorem marked_copy (s : State) (w x : SettingWord) (h : HostWord) : (s.marked w h).copy x = s.copy x := by
  rw [marked_shape]
  rfl

@[simp] theorem marked_setting (s : State) (w x : SettingWord) (h : HostWord) :
    (s.marked w h).setting x = s.setting x := by
  rw [marked_shape]
  rfl

section
variable (s : State) (w : SettingWord) (h : HostWord)

@[simp] theorem marked_posAt (p : Pos) : (s.marked w h).posAt p = s.posAt p := by rw [marked_shape]; rfl
@[simp] theorem marked_intake : (s.marked w h).intake = s.intake := by rw [marked_shape]
@[simp] theorem marked_sweep : (s.marked w h).sweep = s.sweep := by rw [marked_shape]
@[simp] theorem marked_trigger : (s.marked w h).trigger = s.trigger := by rw [marked_shape]
@[simp] theorem marked_eval : (s.marked w h).eval = s.eval := by rw [marked_shape]

end

theorem op_of_base {s t : State} (h : t.base = s.base) : t.control.op = s.control.op := congrArg Base.op h

theorem applySetting_op (s : State) (w : SettingWord) (o n : Word) :
    (s.applySetting w o n).control.op = s.control.op := by
  have hclamp (u : State) : u.clampAll.control.op = u.control.op := op_of_base (clampAll_base u)
  have hrestart : (s.restartIfChanged o n).control.op = s.control.op := by
    unfold State.restartIfChanged
    split <;> rfl
  unfold State.applySetting
  split
  case h_1 => exact op_of_base (takeLayout_base s o n)
  case h_3 =>
    rw [hclamp]
    unfold State.takeBody
    split <;> rfl
  case h_4 => exact hclamp s
  case h_5 => exact hclamp s
  case h_7 => exact op_of_base (recomputeDeadlines_base s)
  case h_10 => exact hrestart
  case h_11 => exact hrestart
  all_goals rfl

/-- R175: a setting with an allowed merged word taken in RUN: its owner takes it, and a whole word sets the loaded flag. -/
theorem exec_takesSetting {s : State} {w : SettingWord} {h : HostWord} {v : Word} (dt : Nat) (hs : takesSetting s w h v) :
    exec (settingWrite dt w.offset h) s =
      .next (((s.copied dt w h v).applySetting w (s.copy w) v).marked w h) := by
  obtain ⟨⟨hrun, hfree⟩, hen, hm, hok⟩ := hs
  obtain rfl := eq_mergeBytes hm
  have hexec := exec_setting dt w ⟨Or.inr hrun, hfree⟩ hen
  have htake : ((s.elapse dt).carryWrite (s.windowBase + w.offset) [h]).takeSetting w (mergeBytes (s.copy w) h) =
      (s.copied dt w h (mergeBytes (s.copy w) h)).applySetting w (s.copy w) (mergeBytes (s.copy w) h) :=
    if_pos ((settingOk_iff _ _ _).mpr hok)
  rw [takeHostSetting_marks htake fun _ hop => ?_] at hexec
  · exact hexec
  · have hbase := applySetting_op (s.copied dt w h (mergeBytes (s.copy w) h)) w (s.copy w) (mergeBytes (s.copy w) h)
    rw [hbase] at hop
    exact absurd (hrun.symm.trans hop) (by decide)

/-- What every taken setting leaves, when its owner leaves the base but for the settings, and the candidate list. -/
theorem settingTaken_of {s u : State} {dt : Nat} {w : SettingWord} {h : HostWord} {v : Word}
    (hcopy : u.copy w = v)
    (hothers : ∀ x, x ≠ w → (x = .viewLag → w ≠ .sweepPeriod ∧ w ≠ .historyDepth) → u.copy x = s.copy x)
    (hmem : u.mem = (s.copied dt w h v).mem) (hnow : u.now = s.now + dt) (hcand : u.candidates = s.candidates)
    (hpins : u.pins = s.pins) (hpending : u.pending = s.pending)
    (hsnoop : { u.snoop with settings := s.snoop.settings } = s.snoop) (hcontrol : u.control = s.control) :
    settingTaken s (u.marked w h) dt w h v := by
  have hloaded (x : SettingWord) : u.isLoaded x = s.isLoaded x := by
    unfold State.isLoaded
    rw [hcontrol]
  refine ⟨?_, ?_, fun x hx => ?_, fun x hx hlag => ?_, ?_⟩
  · rw [marked_copy, hcopy]
  · rw [isLoaded_marked_same, hloaded]
  · rw [isLoaded_marked_other u h hx, hloaded]
  · rw [marked_copy, hothers x hx hlag]
  · rw [marked_shape, hcontrol]
    exact ⟨hmem, hnow, hcand, hpins, hpending, hsnoop, rfl⟩

section
variable {s : State} {dt : Nat} {w : SettingWord} {h : HostWord} {v : Word}

theorem copied_copy_same : (s.copied dt w h v).copy w = v := setCopy_copy_same ..
theorem copied_copy_other {x : SettingWord} (hx : x ≠ w) : (s.copied dt w h v).copy x = s.copy x :=
  setCopy_copy_other _ _ _ _ hx
theorem copied_setting_same : (s.copied dt w h v).setting w = bits v 0 16 := by
  unfold State.setting
  rw [copied_copy_same]
theorem copied_setting_other {x : SettingWord} (hx : x ≠ w) : (s.copied dt w h v).setting x = s.setting x := by
  unfold State.setting
  rw [copied_copy_other hx]

/-- The owner writes no more than the records, the lists and the outputs. -/
theorem settingTaken_of_snoop {u : State} (hsnoop : u.snoop = (s.copied dt w h v).snoop)
    (hmem : u.mem = (s.copied dt w h v).mem) (hnow : u.now = s.now + dt) (hcand : u.candidates = s.candidates)
    (hpins : u.pins = s.pins) (hpending : u.pending = s.pending) (hcontrol : u.control = s.control) :
    settingTaken s (u.marked w h) dt w h v := by
  have hcopies (x : SettingWord) : u.copy x = (s.copied dt w h v).copy x := by
    unfold State.copy
    rw [hsnoop]
  refine settingTaken_of ((hcopies w).trans copied_copy_same) (fun x hx _ => (hcopies x).trans (copied_copy_other hx))
    hmem hnow hcand hpins hpending ?_ hcontrol
  rw [hsnoop]
  rfl

theorem settingTaken_of_tracks {u : State} (hu : Tracks (s.copied dt w h v) u) (hrun : s.control.op = .run) :
    settingTaken s (u.marked w h) dt w h v :=
  settingTaken_of_snoop hu.snoop (congrArg Base.mem hu.base) hu.now hu.candidates (congrArg Base.pins hu.base)
    (congrArg Base.pending hu.base) (hu.control hrun)

end

/-! ### The outputs after a new acknowledge limit or action (R127, R130) -/

theorem refreshOutputs_control_quiet (s : State) : (s.refreshOutputs false).control = s.control := by
  unfold State.refreshOutputs
  simp only [Bool.false_and, Bool.or_false]

theorem refresh_lamp {s : State} (h : lampOk s) :
    s.eval.lamp.refresh (anyAlert s.positions AlertRec.standing) (anyAlert s.positions AlertRec.unackedAlarm) s.now =
      s.eval.lamp := by
  obtain ⟨hoff, hflash⟩ := h
  rw [← anyAlert_eq_false_iff] at hoff
  rw [← anyAlert_iff] at hflash
  unfold Lamp.refresh
  cases hl : s.eval.lamp with
  | off =>
    have hstanding := hoff.mp hl
    have hnone : anyAlert s.positions AlertRec.unackedAlarm = false := by
      refine Bool.eq_false_iff.mpr fun hu => ?_
      obtain ⟨d, e, he⟩ := hflash.mpr hu
      rw [hl] at he
      cases he
    rw [hstanding, hnone]
    rfl
  | on =>
    have hstanding : anyAlert s.positions AlertRec.standing = true := by
      rw [← Bool.not_eq_false]
      exact fun hf => by rw [hoff.mpr hf] at hl; cases hl
    have hnone : anyAlert s.positions AlertRec.unackedAlarm = false := by
      refine Bool.eq_false_iff.mpr fun hu => ?_
      obtain ⟨d, e, he⟩ := hflash.mpr hu
      rw [hl] at he
      cases he
    rw [hstanding, hnone]
    rfl
  | flash d e =>
    rw [hflash.mp ⟨d, e, hl⟩]
    rfl

/-- R130: the escalation timer after a refresh. -/
theorem refresh_escalation (s : State) :
    let t := s.refreshOutputs false
    ((s.setting .ackLimit = 0 ∨ s.setting .escAction ≠ 1 ∨
        ∀ (p : Pos) (k : AlertKind), (s.alertAt p k).unackedAlarm = false) → t.eval.escalation = .idle) ∧
      (s.setting .ackLimit ≠ 0 → s.setting .escAction = 1 →
        (∃ (p : Pos) (k : AlertKind), (s.alertAt p k).unackedAlarm = true) →
        t.eval.escalation = if s.eval.escalation = .idle then .running (s.now + 1000 * s.setting .ackLimit)
          else s.eval.escalation) := by
  intro t
  have ht : t.eval.escalation = s.eval.escalation.refresh s.escalationArmed
    (anyAlert s.positions AlertRec.unackedAlarm) (1000 * s.setting .ackLimit) s.now := rfl
  rw [ht]
  unfold Escalation.refresh State.escalationArmed
  refine ⟨fun h => ?_, fun hlimit haction hsome => ?_⟩
  · refine if_neg ?_
    rw [Bool.and_eq_true, Bool.and_eq_true, decide_eq_true_iff, decide_eq_true_iff]
    rintro ⟨⟨hlimit, haction⟩, hany⟩
    obtain h | h | h := h
    · omega
    · exact h haction
    · rw [(anyAlert_eq_false_iff _ _).mpr h] at hany
      cases hany
  · rw [if_pos]
    · cases s.eval.escalation <;> rfl
    · rw [Bool.and_eq_true, Bool.and_eq_true, decide_eq_true_iff, decide_eq_true_iff]
      exact ⟨⟨Nat.pos_of_ne_zero hlimit, haction⟩, (anyAlert_iff _ _).mpr hsome⟩

/-! ### The words (R175) -/

theorem exec_laneMask {s : State} {h : HostWord} {v : Word} (dt : Nat) (hs : takesSetting s .laneMask h v) :
    exec (settingWrite dt 0x14 h) s = .next ((s.copied dt .laneMask h v).takeLaneMask.marked .laneMask h) := by
  have hoffset : (0x14 : Nat) = SettingWord.laneMask.offset := rfl
  rw [hoffset, exec_takesSetting dt hs]
  rfl

/-- R26, R35, R36: a lane after a new mask in RUN. -/
theorem takeLaneMask_lane {s : State} (l : Lane) (hrun : s.control.op = .run) : s.takeLaneMask.intake.lanes.get l =
    if s.masked l then { s.intake.lanes.get l with state := .off, quietCount := 0, quiet := false }
    else { s.intake.lanes.get l with
      state := if (s.intake.lanes.get l).state = .off then .settling (s.now + 20) else (s.intake.lanes.get l).state } := by
  have hhigh : s.enableHigh l = !(s.masked l) := by
    rw [State.enableHigh, hrun]
    exact Bool.and_true _
  have hlane : s.takeLaneMask.intake.lanes.get l = if s.masked l
      then { s.followEnables.intake.lanes.get l with quietCount := 0, quiet := false }
      else s.followEnables.intake.lanes.get l := Lanes.get_tabulate _ _
  rw [hlane, followEnables_lane, hhigh]
  cases s.masked l with
  | true => rfl
  | false =>
    unfold LaneRec.follow
    cases hst : (s.intake.lanes.get l).state <;> rfl

/-! #### The periods (R144) -/

/-- R144: the view lag after a restart. -/
theorem restartHistory_copies (s : State) :
    (∀ x, x ≠ .viewLag → s.restartHistory.copy x = s.copy x) ∧
      s.restartHistory.setting .viewLag =
        (if s.setting .historyDepth ≤ s.setting .viewLag then 0 else s.setting .viewLag) ∧
      { s.restartHistory.snoop with settings := s.snoop.settings } = s.snoop := by
  have hlow (w : Word) : bits (mergeBytes w { enables := 3, data := 0 }) 0 16 = 0 := by
    have h0 := mergeBytes_byte w { enables := 3, data := 0 } 0
    have h1 := mergeBytes_byte w { enables := 3, data := 0 } 1
    have h0' := congrArg BitVec.toNat h0
    have h1' := congrArg BitVec.toNat h1
    simp only [extractLsb'_byte] at h0' h1'
    have e0 : bits (mergeBytes w { enables := 3, data := 0 }) (8 * (0 : Fin 4).val) 8 = 0 := h0'
    have e1 : bits (mergeBytes w { enables := 3, data := 0 }) (8 * (1 : Fin 4).val) 8 = 0 := h1'
    simp only [bits, Fin.val_zero, Fin.val_one, Nat.mul_zero, Nat.mul_one, pow_zero, Nat.div_one] at e0 e1 ⊢
    generalize (mergeBytes w { enables := 3, data := 0 }).toNat = n at *
    omega
  unfold State.restartHistory
  dsimp only
  by_cases hd : s.setting .historyDepth ≤ s.setting .viewLag
  · have hset : s.discardTrend.setting .viewLag = s.setting .viewLag := rfl
    simp only [hset, if_pos hd]
    refine ⟨fun x hx => setCopy_copy_other s .viewLag x _ hx, ?_, rfl⟩
    have hcopy := setCopy_copy_same s .viewLag (mergeBytes (s.copy .viewLag) { enables := 3, data := 0 })
    exact (congrArg (fun w : Word => bits w 0 16) hcopy).trans (hlow _)
  · have hset : s.discardTrend.setting .viewLag = s.setting .viewLag := rfl
    simp only [hset, if_neg hd]
    exact ⟨fun x _ => rfl, rfl, rfl⟩

end Sys2Proof.Machine
end

section
/-! The settings that are taken (O39) and the vehicle state (O43), assembled from the owners' laws. -/

namespace Sys2Proof.Machine
open Sys2Proof.Claim

/-! ### The owners (R175) -/

theorem applySetting_plain {w : SettingWord} (hw : w ∈ plainWords) (s : State) (o n : Word) : s.applySetting w o n = s := by
  unfold State.applySetting
  split
  case h_1 => exact absurd hw (by decide)
  case h_2 => exact absurd hw (by decide)
  case h_3 => exact absurd hw (by decide)
  case h_4 => exact absurd hw (by decide)
  case h_5 => exact absurd hw (by decide)
  case h_6 => exact absurd hw (by decide)
  case h_7 => exact absurd hw (by decide)
  case h_8 => exact absurd hw (by decide)
  case h_9 => exact absurd hw (by decide)
  case h_10 => exact absurd hw (by decide)
  case h_11 => exact absurd hw (by decide)
  all_goals rfl

section
variable {s : State} {dt : Nat} {w : SettingWord} {h : HostWord} {v : Word}

/-- R175: a word that is read when it is used. -/
theorem takesPlain (hs : takesSetting s w h v) (hw : w ∈ plainWords) :
    ∃ t, exec (settingWrite dt w.offset h) s = .next t ∧ settingTaken s t dt w h v ∧ settingAside s t = s := by
  have hexec := exec_takesSetting dt hs
  rw [applySetting_plain hw] at hexec
  refine ⟨_, hexec, settingTaken_of_snoop rfl rfl rfl rfl rfl rfl rfl, ?_⟩
  rw [marked_shape]
  rfl

/-- R26, R35, R36: the lane-enable mask. -/
theorem takesLaneMask (hs : takesSetting s .laneMask h v) :
    ∃ t, exec (settingWrite dt 0x14 h) s = .next t ∧ settingTaken s t dt .laneMask h v ∧
      (∀ l, t.intake.lanes.get l =
        if v.getLsbD (laneNum l) then { s.intake.lanes.get l with state := .off, quietCount := 0, quiet := false }
        else { s.intake.lanes.get l with
          state := if (s.intake.lanes.get l).state = .off then .settling (s.now + dt + 20)
            else (s.intake.lanes.get l).state }) ∧
      { settingAside s t with intake := { t.intake with lanes := s.intake.lanes } } = s := by
  refine ⟨_, exec_laneMask dt hs, settingTaken_of_snoop rfl rfl rfl rfl rfl rfl rfl, fun l => ?_, ?_⟩
  · have hmask : (s.copied dt .laneMask h v).masked l = v.getLsbD (laneNum l) := by
      rw [State.masked, copied_copy_same]
    have hlane := takeLaneMask_lane (s := s.copied dt .laneMask h v) l hs.1.1
    rw [hmask] at hlane
    rw [marked_shape]
    exact hlane
  · rw [marked_shape]
    rfl

/-- R89, R90: a range. -/
theorem takesRange (hs : takesSetting s w h v) (hw : w ∈ [SettingWord.rollingRange, .parkedRange]) :
    ∃ t, exec (settingWrite dt w.offset h) s = .next t ∧ settingTaken s t dt w h v ∧
      (∀ p, (s.posAt p).interval = none → t.posAt p = s.posAt p) ∧
      (∀ p e, (s.posAt p).interval = some e →
        (clampedBy (t.copy (rangeWordOf s p)) e = e → t.posAt p = s.posAt p) ∧
        (clampedBy (t.copy (rangeWordOf s p)) e ≠ e →
          recomputed (s.posAt p) (t.posAt p) (s.setting .silenceMultiple) (clampedBy (t.copy (rangeWordOf s p)) e)
            (s.now + dt))) ∧
      t.intake = s.intake ∧ t.sweep = s.sweep ∧ t.trigger.records = s.trigger.records := by
  have hown : (s.copied dt w h v).applySetting w (s.copy w) v = (s.copied dt w h v).clampAll := by
    simp only [List.mem_cons, List.not_mem_nil, or_false] at hw
    obtain rfl | rfl := hw <;> rfl
  have hne (x : SettingWord) (hx : x ∉ [SettingWord.rollingRange, .parkedRange]) : x ≠ w := fun e => hx (e ▸ hw)
  have hexec := exec_takesSetting dt hs
  rw [hown] at hexec
  have hclamp := posAt_clampAll (s.copied dt w h v)
  have htracks := clampAll_tracks (s.copied dt w h v)
  have hcopies (x : SettingWord) : ((s.copied dt w h v).clampAll.marked w h).copy x = (s.copied dt w h v).copy x := by
    rw [marked_copy, htracks.copy]
  have hlifted (p : Pos) : (s.copied dt w h v).lifted p = s.lifted p := by
    unfold State.lifted State.layout
    rw [copied_copy_other (hne .axleLayout (by decide)), copied_copy_other (hne .vehicle (by decide))]
  have hword (p : Pos) : rangeWordOf (s.copied dt w h v) p = rangeWordOf s p := rangeWordOf_congr (hlifted p) rfl rfl
  have hmultiple : (s.copied dt w h v).setting .silenceMultiple = s.setting .silenceMultiple :=
    copied_setting_other (hne .silenceMultiple (by decide))
  refine ⟨_, hexec, settingTaken_of_tracks htracks hs.1.1, fun p hnone => ?_, fun p e he => ?_, ?_, ?_, ?_⟩
  · rw [marked_posAt]
    exact (hclamp p).1 hnone
  · obtain ⟨hsame, hmoved⟩ := (hclamp p).2 e he
    rw [hword, hmultiple] at hmoved
    rw [hword] at hsame
    rw [hcopies, marked_posAt]
    exact ⟨hsame, hmoved⟩
  · rw [marked_intake]
    exact htracks.intake
  · rw [marked_sweep]
    exact htracks.sweep
  · rw [marked_trigger]
    exact htracks.records

/-- R101: the drift limit. -/
theorem takesDriftLimit (hs : takesSetting s .driftLimit h v) :
    ∃ t, exec (settingWrite dt 0x44 h) s = .next t ∧ settingTaken s t dt .driftLimit h v ∧
      (∀ p, t.posAt p = { s.posAt p with
        drift := if bits v 0 16 ≤ (s.posAt p).drift.natAbs then 0 else (s.posAt p).drift }) ∧
      { settingAside s t with positions := s.positions } = s := by
  have hoffset : (0x44 : Nat) = SettingWord.driftLimit.offset := rfl
  have hexec : exec (settingWrite dt 0x44 h) s =
      .next ((s.copied dt .driftLimit h v).dropDrifts.marked .driftLimit h) := by
    rw [hoffset, exec_takesSetting dt hs]
    rfl
  refine ⟨_, hexec, settingTaken_of_snoop rfl rfl rfl rfl rfl rfl rfl, fun p => ?_, ?_⟩
  · rw [marked_posAt, ← copied_setting_same (s := s) (dt := dt) (w := .driftLimit) (h := h) (v := v), State.dropDrifts,
      posAt_mapPos]
    rfl
  · rw [marked_shape]
    rfl

/-- R101: the silence multiple. -/
theorem takesSilenceMultiple (hs : takesSetting s .silenceMultiple h v) :
    ∃ t, exec (settingWrite dt 0x4C h) s = .next t ∧ settingTaken s t dt .silenceMultiple h v ∧
      (∀ p, (s.posAt p).interval = none → t.posAt p = s.posAt p) ∧
      (∀ p e, (s.posAt p).interval = some e →
        recomputed (s.posAt p) (t.posAt p) (bits v 0 16) e (s.now + dt)) ∧
      t.intake = s.intake ∧ t.sweep = s.sweep ∧ t.trigger.records = s.trigger.records := by
  have hoffset : (0x4C : Nat) = SettingWord.silenceMultiple.offset := rfl
  have hexec : exec (settingWrite dt 0x4C h) s =
      .next ((s.copied dt .silenceMultiple h v).recomputeDeadlines.marked .silenceMultiple h) := by
    rw [hoffset, exec_takesSetting dt hs]
    rfl
  have htracks := recomputeDeadlines_tracks (s.copied dt .silenceMultiple h v)
  have hrec := posAt_recomputeDeadlines (s.copied dt .silenceMultiple h v)
  rw [copied_setting_same] at hrec
  refine ⟨_, hexec, settingTaken_of_tracks htracks hs.1.1, fun p hnone => ?_, fun p e he => ?_, ?_, ?_, ?_⟩
  · rw [marked_posAt]
    exact (hrec p).1 hnone
  · rw [marked_posAt]
    exact (hrec p).2 e he
  · rw [marked_intake]
    exact htracks.intake
  · rw [marked_sweep]
    exact htracks.sweep
  · rw [marked_trigger]
    exact htracks.records

/-- R130: the acknowledge limit and the escalation action. -/
theorem takesEscalation (hs : takesSetting s w h v) (hw : w ∈ [SettingWord.ackLimit, .escAction]) (hlamp : lampOk s) :
    ∃ t, exec (settingWrite dt w.offset h) s = .next t ∧ settingTaken s t dt w h v ∧
      { settingAside s t with eval := { t.eval with escalation := s.eval.escalation } } = s ∧
      ((t.setting .ackLimit = 0 ∨ t.setting .escAction ≠ 1 ∨
        ∀ (p : Pos) (k : AlertKind), (s.alertAt p k).unackedAlarm = false) → t.eval.escalation = .idle) ∧
      (t.setting .ackLimit ≠ 0 → t.setting .escAction = 1 →
        (∃ (p : Pos) (k : AlertKind), (s.alertAt p k).unackedAlarm = true) →
        t.eval.escalation = if s.eval.escalation = .idle then .running (s.now + dt + 1000 * t.setting .ackLimit)
          else s.eval.escalation) := by
  have hown : (s.copied dt w h v).applySetting w (s.copy w) v = (s.copied dt w h v).refreshOutputs false := by
    simp only [List.mem_cons, List.not_mem_nil, or_false] at hw
    obtain rfl | rfl := hw <;> rfl
  have hexec := exec_takesSetting dt hs
  rw [hown] at hexec
  have hcontrol : ((s.copied dt w h v).refreshOutputs false).control = s.control :=
    refreshOutputs_control_quiet (s.copied dt w h v)
  have hlamp' : ((s.copied dt w h v).refreshOutputs false).eval.lamp = s.eval.lamp :=
    refresh_lamp (s := s.copied dt w h v) hlamp
  obtain ⟨hidle, hrunning⟩ := refresh_escalation (s.copied dt w h v)
  refine ⟨_, hexec, settingTaken_of_snoop rfl rfl rfl rfl rfl rfl hcontrol, ?_, ?_, ?_⟩
  · rw [marked_shape]
    have heval : { ((s.copied dt w h v).refreshOutputs false).eval with escalation := s.eval.escalation } = s.eval := by
      change { s.eval with lamp := ((s.copied dt w h v).refreshOutputs false).eval.lamp } = s.eval
      rw [hlamp']
    change { s with eval := { ((s.copied dt w h v).refreshOutputs false).eval with escalation := s.eval.escalation } } = s
    rw [heval]
  · rw [marked_setting, marked_setting, marked_shape]
    exact hidle
  · rw [marked_setting, marked_setting, marked_shape]
    exact hrunning

/-- R144: the sweep period and the history depth. -/
theorem takesPeriod (hs : takesSetting s w h v) (hw : w ∈ [SettingWord.sweepPeriod, .historyDepth]) :
    ∃ t, exec (settingWrite dt w.offset h) s = .next t ∧ settingTaken s t dt w h v ∧
      (bits v 0 16 = s.setting w → settingAside s t = s ∧ t.copy .viewLag = s.copy .viewLag) ∧
      (bits v 0 16 ≠ s.setting w →
        t.sweep = { s.sweep with
          head := t.setting .historyDepth - 1, written := 0, trend := [], keptReads := []
          publication := s.sweep.publication.map (fun q => { q with restarted := true }) } ∧
        t.setting .viewLag =
          (if t.setting .historyDepth ≤ s.setting .viewLag then 0 else s.setting .viewLag) ∧
        t.path.queue = s.path.queue.filter (fun e => e.origin != .trend) ∧
        { settingAside s t with path := s.path, sweep := s.sweep } = s) := by
  have hown : (s.copied dt w h v).applySetting w (s.copy w) v = (s.copied dt w h v).restartIfChanged (s.copy w) v := by
    simp only [List.mem_cons, List.not_mem_nil, or_false] at hw
    obtain rfl | rfl := hw <;> rfl
  have hlag : w ≠ .viewLag := by
    rintro rfl
    exact absurd hw (by decide)
  have hwords : ¬ (w ≠ .sweepPeriod ∧ w ≠ .historyDepth) := by
    simp only [List.mem_cons, List.not_mem_nil, or_false] at hw
    tauto
  have hexec := exec_takesSetting dt hs
  rw [hown] at hexec
  by_cases hsame : bits v 0 16 = s.setting w
  · have hstay : (s.copied dt w h v).restartIfChanged (s.copy w) v = s.copied dt w h v := if_pos hsame.symm
    rw [hstay] at hexec
    refine ⟨_, hexec, settingTaken_of_snoop rfl rfl rfl rfl rfl rfl rfl, fun _ => ⟨?_, ?_⟩, fun hne => absurd hsame hne⟩
    · rw [marked_shape]
      rfl
    · rw [marked_copy]
      exact copied_copy_other hlag.symm
  · have hgo : (s.copied dt w h v).restartIfChanged (s.copy w) v = (s.copied dt w h v).restartHistory :=
      if_neg fun e => hsame e.symm
    rw [hgo] at hexec
    obtain ⟨hcopies, hview, hsnoop⟩ := restartHistory_copies (s.copied dt w h v)
    have hdepth : (s.copied dt w h v).restartHistory.setting .historyDepth = (s.copied dt w h v).setting .historyDepth := by
      unfold State.setting
      rw [hcopies .historyDepth (by decide)]
    refine ⟨_, hexec, settingTaken_of ((hcopies w hlag).trans copied_copy_same) (fun x hx hxlag => ?_) rfl rfl rfl rfl rfl ?_
      rfl, fun he => absurd he hsame, fun _ => ⟨?_, ?_, ?_, ?_⟩⟩
    · exact (hcopies x fun e => hwords (hxlag e)).trans (copied_copy_other hx)
    · have hold := congrArg (fun n : Snoop => { n with settings := s.snoop.settings }) hsnoop
      exact hold
    · rw [marked_setting, hdepth, marked_shape]
      rfl
    · rw [marked_setting, marked_setting, hdepth, hview, copied_setting_other hlag.symm]
    · rw [marked_shape]
      rfl
    · rw [marked_shape]
      rfl

/-! ### A word in LOADING (R155, R156) -/

theorem completeLoad_enters (hload : s.control.op = .loading) (hall : ∀ x, s.isLoaded x = true) :
    s.completeLoad = ({ s with control := { s.control with settingsLoaded := true } } : State).enterRun :=
  if_pos ⟨hload, List.all_eq_true.mpr fun x _ => hall x⟩

/-- R155, R156: a word that is read when it is used, in LOADING. -/
theorem loadsPlain (hload : s.control.op = .loading) (hfree : memoryFree s) (hen : h.enables ≠ 0) (hw : w ∈ plainWords)
    (hm : mergedInto (s.copy w) h v) (hok : allowedWord w v (s.setting .historyDepth)) :
    ∃ t, exec (settingWrite dt w.offset h) s = .next t ∧ t.copy w = v ∧ (∀ x, x ≠ w → t.copy x = s.copy x) ∧
      t.isLoaded w = (s.isLoaded w || h.enables == 15) ∧ (∀ x, x ≠ w → t.isLoaded x = s.isLoaded x) ∧
      wordWritten s t w.offset h ∧ t.candidates = s.candidates ∧ t.pending = s.pending ∧
      (h.enables = 15 → (∀ x, x ≠ w → s.isLoaded x = true) →
        t.control.op = .run ∧ t.control.settingsLoaded = true ∧ t.control.parked = [] ∧
        t.sweep.timer = some (s.now + dt + 1000 * t.setting .sweepPeriod)) ∧
      ((h.enables ≠ 15 ∨ ∃ x, x ≠ w ∧ s.isLoaded x = false) →
        settingAside s t = s ∧ { t.control with loaded := s.control.loaded } = s.control) := by
  obtain rfl := eq_mergeBytes hm
  have hexec := exec_setting dt w ⟨Or.inl hload, hfree⟩ hen
  have htake : ((s.elapse dt).carryWrite (s.windowBase + w.offset) [h]).takeSetting w (mergeBytes (s.copy w) h) =
      s.copied dt w h (mergeBytes (s.copy w) h) :=
    (if_pos ((settingOk_iff _ _ _).mpr hok)).trans (applySetting_plain hw _ _ _)
  generalize hu : s.copied dt w h (mergeBytes (s.copy w) h) = u at htake
  have hcopyw : u.copy w = mergeBytes (s.copy w) h := by rw [← hu]; exact copied_copy_same
  have hcopyx (x : SettingWord) (hx : x ≠ w) : u.copy x = s.copy x := by rw [← hu]; exact copied_copy_other hx
  have hloaded (x : SettingWord) : u.isLoaded x = s.isLoaded x := by rw [← hu]; rfl
  by_cases hall : h.enables = 15 ∧ ∀ x, x ≠ w → s.isLoaded x = true
  · obtain ⟨h15, hflags⟩ := hall
    have hmarked (x : SettingWord) : (u.markLoaded w).isLoaded x = true := by
      by_cases hx : x = w
      · rw [hx]
        exact isLoaded_markLoaded_same u w
      · rw [isLoaded_markLoaded_other u hx, hloaded]
        exact hflags x hx
    have henter : ((s.elapse dt).carryWrite (s.windowBase + w.offset) [h]).takeHostSetting w h =
        ({ u.markLoaded w with control := { (u.markLoaded w).control with settingsLoaded := true } } : State).enterRun := by
      refine (if_pos h15).trans ?_
      have htake' := congrArg (fun t : State => (t.markLoaded w).completeLoad) htake
      refine htake'.trans (completeLoad_enters ?_ hmarked)
      rw [← hu]
      exact hload
    rw [henter] at hexec
    obtain ⟨n, p, i, q, hshape⟩ := enterRun_shape
      { u.markLoaded w with control := { (u.markLoaded w).control with settingsLoaded := true } }
    rw [hshape] at hexec
    refine ⟨_, hexec, hcopyw, hcopyx, ?_, fun x hx => ?_, ?_, ?_, ?_, fun _ _ => ⟨rfl, rfl, rfl, ?_⟩, fun hno => ?_⟩
    · rw [beq_iff_eq.mpr h15, Bool.or_true]
      exact hmarked w
    · rw [hflags x hx]
      exact hmarked x
    · rw [← hu]
      rfl
    · rw [← hu]
      rfl
    · rw [← hu]
      rfl
    · rw [← hu]
      rfl
    · obtain hno | ⟨x, hx, hclear⟩ := hno
      · exact absurd h15 hno
      · rw [hflags x hx] at hclear
        cases hclear
  · have hstay : ((s.elapse dt).carryWrite (s.windowBase + w.offset) [h]).takeHostSetting w h = u.marked w h := by
      refine takeHostSetting_marks htake fun h15 _ => ?_
      by_contra hno
      push Not at hno
      refine hall ⟨h15, fun x hx => ?_⟩
      have hx' := hno x hx
      rw [hloaded] at hx'
      exact Bool.eq_true_of_not_eq_false hx'
    rw [hstay] at hexec
    refine ⟨_, hexec, ?_, fun x hx => ?_, ?_, fun x hx => ?_, ?_, ?_, ?_, fun h15 hflags => absurd ⟨h15, hflags⟩ hall,
      fun _ => ⟨?_, ?_⟩⟩
    · rw [marked_copy, hcopyw]
    · rw [marked_copy, hcopyx x hx]
    · rw [isLoaded_marked_same, hloaded]
    · rw [isLoaded_marked_other u h hx, hloaded]
    all_goals
      rw [marked_shape, ← hu]
      rfl

end

/-- Settles O39: word by word. -/
theorem settingIsTaken : Obligations.SettingIsTaken :=
  ⟨fun _ _ _ _ _ hs hw => takesPlain hs hw, fun _ _ _ _ hs => takesLaneMask hs, fun _ _ _ _ _ hs hw => takesRange hs hw,
    fun _ _ _ _ hs => takesDriftLimit hs, fun _ _ _ _ hs => takesSilenceMultiple hs,
    fun _ _ _ _ _ hs hw hlamp => takesEscalation hs hw hlamp, fun _ _ _ _ _ hs hw => takesPeriod hs hw,
    fun _ _ _ _ _ hload hfree hen hw hm hok => loadsPlain hload hfree hen hw hm hok⟩

end Sys2Proof.Machine
end

section
/-! The vehicle state word (O43): the body, the lifted axles and the clamp that follows them (R2, R90, R123). -/

namespace Sys2Proof.Machine
open Sys2Proof.Claim

/-- R175: a settings word that has a command of its own, written in RUN with an allowed merged word. -/
theorem exec_ownSetting {s : State} {c : Instr} {w : SettingWord} {h : HostWord} {v : Word} {dt : Nat}
    (hc : exec c s = .next ((s.elapse dt).writesSetting w.offset h)) (hs : takesSetting s w h v) :
    exec c s = .next (((s.copied dt w h v).applySetting w (s.copy w) v).marked w h) := by
  obtain ⟨⟨hrun, hheld, hbus, hover⟩, hen, -, -⟩ := id hs
  obtain ⟨hlt, -⟩ := settingOffset_lt w
  have htake : (s.elapse dt).writesSetting w.offset h =
      ((s.elapse dt).carryWrite (s.windowBase + w.offset) [h]).takeHostSetting w h := by
    rw [writesSetting_free (s.elapse dt) _ h hlt hheld hbus hover]
    exact takeWord_setting (s := (s.elapse dt).carryWrite (s.windowBase + w.offset) [h]) w
      (takesWrites_of_loading_or_run (Or.inr hrun)) hen
  have hsetting := exec_takesSetting dt hs
  rw [exec_setting dt w ⟨Or.inr hrun, hheld, hbus, hover⟩ hen] at hsetting
  rw [hc, htake]
  exact hsetting

theorem mergedInto_whole (old v : Word) : mergedInto old (whole v) v := fun i => by
  have hon : (15 : BitVec 4).getLsbD i.val = true := by revert i; decide
  rw [whole, hon]
  rfl

theorem whole_enables (v : Word) : (whole v).enables ≠ 0 := by
  change (15 : BitVec 4) ≠ 0
  decide

theorem settleAfter_lowered {n : Nat} (now : Time) (h : n ≠ 0) : settleAfter false n now = some (now + 1000 * n) :=
  if_neg (by simp [h])

/-- R123: the body as the vehicle state word gives it. -/
theorem takeBody_eq (s : State) (was : Bool) : s.takeBody was = { s with eval := { s.eval with
    settleEnd := if was = s.bodyRaised then s.eval.settleEnd
      else settleAfter s.bodyRaised (s.setting .tipSettle) s.now } } := by
  unfold State.takeBody
  split <;> rfl

theorem settleEnd_of_base {s t : State} (h : t.base = s.base) : t.eval.settleEnd = s.eval.settleEnd :=
  congrArg Base.settleEnd h

theorem mem_of_base {s t : State} (h : t.base = s.base) : t.mem = s.mem := congrArg Base.mem h

/-- R123: the tipping freeze by the body flag and the settle timer. -/
theorem frozen_eq (s : State) : s.frozen = (s.bodyRaised || s.eval.settleEnd.isSome) := rfl

theorem lifted_eq (s : State) (p : Pos) : s.lifted p =
    (axleOf p).any (fun a => axleLiftable s.layout a && (s.copy .vehicle).getLsbD (16 + a.val)) := by
  unfold State.lifted
  cases axleOf p <;> rfl

/-- Settles O43: the body (`takeBody_eq`), then the clamp (`posAt_clampAll`). -/
theorem vehicleStateIsTaken : Obligations.VehicleStateIsTaken := by
  intro dt v s hs
  have hexec := exec_ownSetting (c := .vehicleState dt (whole v)) (w := .vehicle) (h := whole v) (v := v) (dt := dt) rfl
    ⟨hs, whole_enables v, mergedInto_whole _ _, trivial⟩
  have hown : (s.copied dt .vehicle (whole v) v).applySetting .vehicle (s.copy .vehicle) v =
      ((s.copied dt .vehicle (whole v) v).takeBody s.bodyRaised).clampAll := rfl
  rw [hown, takeBody_eq] at hexec
  have hraised : (s.copied dt .vehicle (whole v) v).bodyRaised = v.getLsbD 8 := by
    unfold State.bodyRaised
    rw [copied_copy_same]
  have htip : (s.copied dt .vehicle (whole v) v).setting .tipSettle = s.setting .tipSettle :=
    copied_setting_other (by decide)
  rw [hraised, htip] at hexec
  generalize hend : (if s.bodyRaised = v.getLsbD 8 then (s.copied dt .vehicle (whole v) v).eval.settleEnd
    else settleAfter (v.getLsbD 8) (s.setting .tipSettle) (s.copied dt .vehicle (whole v) v).now) = ends at hexec
  have hends : (if s.bodyRaised = v.getLsbD 8 then s.eval.settleEnd
      else settleAfter (v.getLsbD 8) (s.setting .tipSettle) (s.now + dt)) = ends := hend
  generalize hb : ({ s.copied dt .vehicle (whole v) v with eval := { (s.copied dt .vehicle (whole v) v).eval with
    settleEnd := ends } } : State) = b at hexec
  have hcopies (x : SettingWord) (hx : x ≠ .vehicle) : b.copy x = s.copy x := by
    rw [← hb]
    exact copied_copy_other hx
  have hvehicle : b.copy .vehicle = v := by
    rw [← hb]
    exact copied_copy_same
  have hbend : b.eval.settleEnd = ends := by rw [← hb]
  have htracks := clampAll_tracks b
  have hclamp := posAt_clampAll b
  have hsame : (∀ p, b.posAt p = s.posAt p) ∧ b.now = s.now + dt ∧ b.intake = s.intake ∧ b.sweep = s.sweep ∧
      b.candidates = s.candidates ∧ b.trigger = s.trigger ∧ b.pending = s.pending ∧
      b.mem = writeWord s.mem (s.windowBase + 0x1C) (whole v) := by
    rw [← hb]
    exact ⟨fun _ => rfl, rfl, rfl, rfl, rfl, rfl, rfl, rfl⟩
  obtain ⟨hpos, hnow, hintake, hsweep, hcand, htrig, hpending, hmem⟩ := hsame
  have hsetting (x : SettingWord) (hx : x ≠ .vehicle) : b.setting x = s.setting x := by
    unfold State.setting
    rw [hcopies x hx]
  have hmarked (u : State) (x : SettingWord) (h : HostWord) : (u.marked x h).mem = u.mem ∧
      (u.marked x h).pending = u.pending ∧ (u.marked x h).candidates = u.candidates := by
    rw [marked_shape]
    exact ⟨rfl, rfl, rfl⟩
  obtain ⟨htmem, htpending, htcand⟩ := hmarked b.clampAll .vehicle (whole v)
  generalize ht : b.clampAll.marked .vehicle (whole v) = t at *
  have htcopy (x : SettingWord) : t.copy x = b.copy x := by
    rw [← ht, marked_copy, htracks.copy]
  have htend : t.eval.settleEnd = ends := by
    rw [← ht, marked_eval, settleEnd_of_base htracks.base, hbend]
  have htraised : t.bodyRaised = v.getLsbD 8 := by
    unfold State.bodyRaised
    rw [htcopy, hvehicle]
  have htpos (p : Pos) : t.posAt p = b.clampAll.posAt p := by rw [← ht, marked_posAt]
  have htlifted (p : Pos) : t.lifted p = b.lifted p := by
    unfold State.lifted State.layout
    rw [htcopy, htcopy]
  have hword (p : Pos) : rangeWordOf b p = rangeWordOf t p := by
    obtain ⟨-, -, hsample, -, -, hhanded, -⟩ := fields_of_untracked (htracks.fields p)
    exact (rangeWordOf_congr (htlifted p) ((congrArg PosRec.sample (htpos p)).trans hsample)
      ((congrArg PosRec.handedMotion (htpos p)).trans hhanded)).symm
  have hrange (p : Pos) : rangeWordOf t p ≠ .vehicle := by
    unfold rangeWordOf
    split <;> decide
  refine ⟨t, hexec, (htcopy _).trans hvehicle, ?speed, htraised, fun hwas hnew => ?raise, fun hwas hnew htip0 => ?lower,
    fun hwas hnew htip0 => ?lowerAtOnce, fun hstay => ?stays, fun p => ?lifted, fun p hnone => ?unknown, fun p e he => ?clamp,
    fun p => ?binding, ?intake, ?sweep, ?candidates, ?records, ?memory, ?pending⟩
  case speed =>
    unfold State.speed
    rw [htcopy, hvehicle]
  case raise =>
    rw [hwas, hnew] at hends
    have hnone : ends = none := hends.symm
    exact ⟨htend.trans hnone, by rw [frozen_eq, htraised, hnew, Bool.true_or]⟩
  case lower =>
    rw [hwas, hnew] at hends
    have hsome : ends = some (s.now + dt + 1000 * s.setting .tipSettle) := by
      rw [← hends]
      exact settleAfter_lowered _ htip0
    exact ⟨htend.trans hsome, by rw [frozen_eq, htend, hsome, Option.isSome_some, Bool.or_true]⟩
  case lowerAtOnce =>
    rw [hwas, hnew] at hends
    have hnone : ends = none := by
      rw [← hends]
      exact if_pos (Or.inr htip0)
    rw [frozen_eq, htraised, hnew, htend, hnone]
    rfl
  case stays => rw [htend, ← hends, if_pos hstay]
  case lifted =>
    rw [lifted_eq, htcopy, hvehicle]
    unfold State.layout
    rw [htcopy, hcopies .axleLayout (by decide)]
  case unknown => rw [htpos, (hclamp p).1 (by rw [hpos]; exact hnone), hpos]
  case clamp =>
    obtain ⟨hin, hout⟩ := (hclamp p).2 e (by rw [hpos]; exact he)
    rw [hword, hcopies _ (hrange p), hpos] at hin hout
    rw [hsetting .silenceMultiple (by decide), hnow] at hout
    rw [htpos]
    exact ⟨hin, fun _ => hout⟩
  case binding =>
    obtain ⟨hid, hepoch, -⟩ := fields_of_untracked (htracks.fields p)
    rw [htpos, hid, hepoch, hpos]
    exact ⟨rfl, rfl⟩
  case intake => rw [← ht, marked_intake, htracks.intake, hintake]
  case sweep => rw [← ht, marked_sweep, htracks.sweep, hsweep]
  case candidates => rw [htcand, htracks.candidates, hcand]
  case records => rw [← ht, marked_trigger, htracks.records, htrig]
  case memory => exact htmem.trans ((mem_of_base htracks.base).trans hmem)
  case pending => exact htpending.trans (pending_of_base htracks.base hpending)

end Sys2Proof.Machine
end

section
/-! The layout word, position by position (R3, R4, R86): what the relaying of every position leaves of one record. -/

namespace Sys2Proof.Machine
open Sys2Proof.Claim

/-! ### Leaving use (R4, R21) -/

/-- R4, R86: a used position leaves its use, or the side of the trailer that it is on. -/
def leaves (old new : Word) (p : Pos) : Bool :=
  inUse old p && !(inUse new p && trailerPos old p == trailerPos new p)

section
variable {old new : Word} {s : State} {p q : Pos}

theorem relayPosition_leaves (h : leaves old new p = true) :
    State.relayPosition old new s p = s.leaveUse p (if inUse new p then .unlearned else .vacant) := by
  unfold leaves at h
  unfold State.relayPosition
  cases ho : inUse old p <;> cases hn : inUse new p <;> simp_all

theorem relayPosition_enters (ho : inUse old p = false) (hn : inUse new p = true) :
    State.relayPosition old new s p = s.enterUse p := by
  rw [State.relayPosition, if_neg (by rw [ho]; decide), if_pos hn]

theorem relayPosition_stays (hl : leaves old new p = false) (hu : inUse old p = inUse new p) :
    State.relayPosition old new s p = s := by
  unfold leaves at hl
  unfold State.relayPosition
  cases hn : inUse new p <;> simp_all

/-- A position is relaid in one of three ways. -/
theorem relay_cases (old new : Word) (p : Pos) : leaves old new p = true ∨
    (inUse old p = false ∧ inUse new p = true) ∨ (leaves old new p = false ∧ inUse old p = inUse new p) := by
  unfold leaves
  by_cases ht : trailerPos old p = trailerPos new p <;> cases inUse old p <;> cases inUse new p <;> simp [ht]

theorem leaveUse_some {b : BindState} {i : SensorId} (h : (s.posAt p).id = some i) :
    s.leaveUse p b = (s.giveUp p b .layout).notify .unbound (some p) 0 i 0 := by rw [State.leaveUse, h]

theorem leaveUse_none {b : BindState} (h : (s.posAt p).id = none) : s.leaveUse p b =
    ((s.withdrawAll p).clearRecheck p .layout).modPos p (fun r => { r.emptied.noArrival with state := b }) := by
  rw [State.leaveUse, h]

theorem core_leaveUse_same (s : State) (p : Pos) (b : BindState) : ((s.leaveUse p b).posAt p).state = b ∧
    ((s.leaveUse p b).posAt p).id = none := by
  cases hid : (s.posAt p).id with
  | some i =>
    rw [leaveUse_some hid, posAt_notify]
    exact ⟨giveUp_state s p b .layout, giveUp_id s p b .layout⟩
  | none =>
    have hkept : ((s.withdrawAll p).posAt p).id = (s.posAt p).id := id_of_tables (withdrawAll_tables s p) p
    generalize hu : s.withdrawAll p = u at hkept
    rw [leaveUse_none hid, hu, posAt_modPos_same, posAt_clearRecheck]
    exact ⟨rfl, hkept.trans hid⟩

theorem core_leaveUse_other (s : State) (b : BindState) (h : q ≠ p) :
    ((s.leaveUse p b).posAt q).core = s.besides p q .layout := by
  cases hid : (s.posAt p).id with
  | some i =>
    rw [leaveUse_some hid, posAt_notify]
    exact core_giveUp_other s b .layout h
  | none =>
    have htables := withdrawAll_tables s p
    rw [leaveUse_none hid]
    generalize s.withdrawAll p = u at htables ⊢
    have hcore := core_of_tables htables q
    have hclaims := claimAfter_of_tables htables p .layout
    have hclaim : (u.posAt q).claim = (s.posAt q).claim := (congrArg PosRec.claim hcore :)
    rw [posAt_modPos_other _ _ _ _ h, posAt_clearRecheck, if_neg h, hclaims, hclaim]
    unfold State.besides
    rw [← hcore]
    rfl

theorem core_relayPosition_other (old new : Word) (s : State) (h : q ≠ p) :
    ((State.relayPosition old new s p).posAt q).core =
      if leaves old new p = true then s.besides p q .layout else (s.posAt q).core := by
  obtain hl | ⟨ho, hn⟩ | ⟨hl, hu⟩ := relay_cases old new p
  · rw [relayPosition_leaves hl, if_pos hl, core_leaveUse_other s _ h]
  · have hl : leaves old new p = false := by rw [leaves, ho]; rfl
    rw [relayPosition_enters ho hn, if_neg (by rw [hl]; decide)]
    exact congrArg PosRec.core (posAt_modPos_other _ _ _ _ h)
  · rw [relayPosition_stays hl hu, if_neg (by rw [hl]; decide)]

theorem keptBut_relayPosition (old new : Word) (s : State) (h : q ≠ p) :
    (s.posAt q).keptBut ((State.relayPosition old new s p).posAt q) := by
  have hcore := core_relayPosition_other old new s h
  split at hcore
  · exact keptBut_besides hcore
  · exact PosRec.keptBut_of_core hcore

end

/-! ### All positions relaid (R21, R86) -/

/-- R21: what the relaying of the positions of a list leaves of a claim. -/
def State.claimLeft (s : State) (old new : Word) (l : List Pos) (claim : Option SensorId) : Option SensorId :=
  if claim.isSome = true ∧ ∃ q ∈ l, (s.posAt q).recheck = true ∧ (s.posAt q).id = claim ∧ leaves old new q = true then none
  else claim

theorem recheck_of_kept {r u : PosRec} (h : r.keptBut u) : u.recheck = r.recheck := by
  obtain ⟨x, -, h⟩ := h
  exact (congrArg PosRec.recheck h :)

/-- The claims are read off the IDs and the flags of the positions that are relaid. -/
theorem claimLeft_congr {s t : State} {l : List Pos} (old new : Word) (claim : Option SensorId)
    (h : ∀ q ∈ l, (s.posAt q).keptBut (t.posAt q)) : t.claimLeft old new l claim = s.claimLeft old new l claim := by
  have hiff : (∃ q ∈ l, (t.posAt q).recheck = true ∧ (t.posAt q).id = claim ∧ leaves old new q = true) ↔
      ∃ q ∈ l, (s.posAt q).recheck = true ∧ (s.posAt q).id = claim ∧ leaves old new q = true := by
    refine exists_congr fun q => and_congr_right fun hq => ?_
    rw [recheck_of_kept (h q hq), PosRec.keptBut_id (h q hq)]
  unfold State.claimLeft
  simp only [hiff]

/-- One position after the other: the first one clears the claims first. -/
theorem claimLeft_cons (s : State) (old new : Word) (q : Pos) (l : List Pos) (claim : Option SensorId) :
    s.claimLeft old new l (if leaves old new q = true then s.claimAfter q .layout claim else claim) =
      s.claimLeft old new (q :: l) claim := by
  unfold State.claimLeft State.claimAfter
  cases claim with
  | none => cases leaves old new q <;> simp
  | some i =>
    cases hl : leaves old new q
    · simp [hl]
    · by_cases hq : (s.posAt q).recheck = true ∧ (s.posAt q).id = some i
      · obtain ⟨hr, hi⟩ := hq
        simp [hl, hr, hi]
      · have hno : ¬ ((s.posAt q).recheck = true ∧ some i = (s.posAt q).id) := fun h => hq ⟨h.1, h.2.symm⟩
        simp only [List.mem_cons, exists_eq_or_imp, hl, and_true, hq, false_or, ne_eq, reduceCtorEq,
          not_false_eq_true, true_and, hno, if_false, if_true]

/-- A position that stays keeps its record, but for a claim that names the ID of a position that leaves. -/
theorem core_foldl_relayPosition (old new : Word) {p : Pos} (hl : leaves old new p = false)
    (hu : inUse old p = inUse new p) (l : List Pos) (hd : l.Nodup) (s : State) :
    ((l.foldl (State.relayPosition old new) s).posAt p).core =
      { (s.posAt p).core with claim := s.claimLeft old new l (s.posAt p).claim } := by
  induction l generalizing s with
  | nil =>
    have hnone : s.claimLeft old new [] (s.posAt p).claim = (s.posAt p).claim := by simp [State.claimLeft]
    rw [hnone]
    rfl
  | cons q l ih =>
    obtain ⟨hq, hd⟩ := List.nodup_cons.mp hd
    rw [List.foldl_cons, ih hd]
    have hclaims (x : Option SensorId) :
        (State.relayPosition old new s q).claimLeft old new l x = s.claimLeft old new l x :=
      claimLeft_congr old new x fun r hr => keptBut_relayPosition old new s fun h => hq (h ▸ hr)
    rw [hclaims, ← claimLeft_cons s old new q l]
    by_cases hpq : p = q
    · subst hpq
      rw [relayPosition_stays hl hu, if_neg (by rw [hl]; decide)]
    · have hcore := core_relayPosition_other old new s hpq
      by_cases hgo : leaves old new q = true
      · rw [if_pos hgo] at hcore ⊢
        have hclaim : ((State.relayPosition old new s q).posAt p).claim = s.claimAfter q .layout (s.posAt p).claim :=
          (congrArg PosRec.claim hcore :)
        rw [hclaim, hcore]
        rfl
      · rw [if_neg hgo] at hcore ⊢
        have hclaim : ((State.relayPosition old new s q).posAt p).claim = (s.posAt p).claim :=
          (congrArg PosRec.claim hcore :)
        rw [hclaim, hcore]

/-- A sweep over distinct positions, seen from one position: the steps for the others leave its record in a relation to what
it was, before its own step and after it. -/
theorem posAt_foldl_rel {R : PosRec → PosRec → Prop} (hrefl : ∀ r, R r r) (htrans : ∀ {r u v}, R r u → R u v → R r v)
    {f : State → Pos → State} {p : Pos} (hf : ∀ (s : State) (q : Pos), p ≠ q → R (s.posAt p) ((f s q).posAt p))
    (l : List Pos) (hl : l.Nodup) (s : State) : (p ∉ l → R (s.posAt p) ((l.foldl f s).posAt p)) ∧
      (p ∈ l → ∃ u : State, R (s.posAt p) (u.posAt p) ∧ R ((f u p).posAt p) ((l.foldl f s).posAt p)) := by
  induction l generalizing s with
  | nil => exact ⟨fun _ => hrefl _, fun h => absurd h List.not_mem_nil⟩
  | cons q l ih =>
    obtain ⟨hq, hl⟩ := List.nodup_cons.mp hl
    obtain ⟨hout, hin⟩ := ih hl (f s q)
    refine ⟨fun h => ?_, fun h => ?_⟩
    · rw [List.mem_cons, not_or] at h
      exact htrans (hf s q h.1) (hout h.2)
    · by_cases hpq : p = q
      · subst hpq
        exact ⟨s, hrefl _, hout hq⟩
      · obtain ⟨u, hu, hfold⟩ := hin ((List.mem_cons.mp h).resolve_left hpq)
        exact ⟨u, htrans (hf s q hpq) hu, hfold⟩

/-- A sweep that keeps the records of the other positions but for a claim. -/
theorem foldl_keptBut_at {f : State → Pos → State}
    (hf : ∀ (s : State) (p q : Pos), q ≠ p → (s.posAt q).keptBut ((f s p).posAt q)) (l : List Pos) (hl : l.Nodup) (s : State)
    (p : Pos) : (p ∉ l → (s.posAt p).keptBut ((l.foldl f s).posAt p)) ∧
      (p ∈ l → ∃ u : State, (s.posAt p).keptBut (u.posAt p) ∧ ((f u p).posAt p).keptBut ((l.foldl f s).posAt p)) :=
  posAt_foldl_rel PosRec.keptBut_refl PosRec.keptBut_trans (fun s q h => hf s q p h) l hl s

/-- Every position is relaid once, and keeps its record but for its claim before and after. -/
theorem foldl_relayPosition_at (old new : Word) (s : State) (p : Pos) : ∃ u, (s.posAt p).keptBut (u.posAt p) ∧
    ((State.relayPosition old new u p).posAt p).keptBut
      ((positionsInOrder.foldl (State.relayPosition old new) s).posAt p) :=
  (foldl_keptBut_at (fun s _ _ h => keptBut_relayPosition old new s h) positionsInOrder (List.nodup_finRange 26) s p).2
    (List.mem_finRange p)

/-- R4: a position that leaves has no ID, and is VACANT or UNLEARNED. -/
theorem relaid_leaves {old new : Word} {p : Pos} (s : State) (h : leaves old new p = true) :
    ((positionsInOrder.foldl (State.relayPosition old new) s).posAt p).state =
      (if inUse new p then .unlearned else .vacant) ∧
      ((positionsInOrder.foldl (State.relayPosition old new) s).posAt p).id = none := by
  obtain ⟨u, -, hfold⟩ := foldl_relayPosition_at old new s p
  rw [relayPosition_leaves h] at hfold
  obtain ⟨hs, hi⟩ := core_leaveUse_same u p (if inUse new p then .unlearned else .vacant)
  exact ⟨(PosRec.keptBut_state hfold).trans hs, (PosRec.keptBut_id hfold).trans hi⟩

/-- R4: a position that comes into use is UNLEARNED and empty. -/
theorem relaid_enters {old new : Word} {p : Pos} (s : State) (ho : inUse old p = false) (hn : inUse new p = true) :
    ((positionsInOrder.foldl (State.relayPosition old new) s).posAt p).state = .unlearned ∧
      ((positionsInOrder.foldl (State.relayPosition old new) s).posAt p).id = (s.posAt p).id ∧
      ((positionsInOrder.foldl (State.relayPosition old new) s).posAt p).epoch = (s.posAt p).epoch ∧
      sensorFieldsEmpty ((positionsInOrder.foldl (State.relayPosition old new) s).posAt p) := by
  obtain ⟨u, hu, hfold⟩ := foldl_relayPosition_at old new s p
  have hpos : (State.relayPosition old new u p).posAt p =
      { (u.posAt p).emptied.noArrival with state := .unlearned } := by
    rw [relayPosition_enters ho hn]
    exact posAt_modPos_same ..
  have hid := PosRec.keptBut_id hu
  have hepoch := PosRec.keptBut_epoch hu
  generalize (State.relayPosition old new u p).posAt p = r at hfold hpos
  have hr : r.state = .unlearned ∧ r.id = (u.posAt p).id ∧ r.epoch = (u.posAt p).epoch ∧ sensorFieldsEmpty r := by
    rw [hpos]
    exact ⟨rfl, rfl, rfl, rfl, rfl, rfl, rfl, rfl⟩
  obtain ⟨hst, hri, hre, hempty⟩ := hr
  exact ⟨(PosRec.keptBut_state hfold).trans hst, (PosRec.keptBut_id hfold).trans (hri.trans hid),
    (PosRec.keptBut_epoch hfold).trans (hre.trans hepoch), PosRec.keptBut_empty hfold hempty⟩

/-! ### The alerts of a position that stays (R9) -/

/-- R59: a position lies on the axle of the coil of its side. -/
theorem axleOf_sideCoil : ∀ (q : Pos) (c : Coil), sideCoil q = some c → axleOf q = some (coilAxle c) := by decide

/-- A position that leaves a side that stays a twin side does so with its outer position. -/
theorem pairOuter_leaves {old new : Word} {p q : Pos} (hp : leaves old new p = false) (ho : inUse old p = true)
    (hn : inUse new p = true) (hq : leaves old new q = true) : pairOuter new q ≠ some p := by
  intro hpair
  have hstays : trailerPos old p = trailerPos new p := by
    rw [leaves, ho, hn] at hp
    simpa using hp
  unfold pairOuter at hpair
  split at hpair
  · next c hside =>
    split at hpair
    · next htwin =>
      have haxleq := axleOf_sideCoil q c hside
      have haxlep : axleOf p = some (coilAxle c) := by
        rw [← Option.some.inj hpair]
        exact (axleOf_slots c).2
      have hused : inUse new q = true := by
        unfold inUse
        rw [haxleq]
        dsimp only
        rw [htwin]
      have htrailer : trailerPos old q = trailerPos new q := by
        unfold trailerPos at hstays ⊢
        rw [haxlep] at hstays
        rw [haxleq]
        exact hstays
      rw [leaves, hused, htrailer, beq_self_eq_true, Bool.and_self, Bool.not_true, Bool.and_false] at hq
      cases hq
    · cases hpair
  · cases hpair

theorem alertAt_leaveUse_other (s : State) {p q : Pos} (b : BindState) (k : AlertKind) (h : q ≠ p)
    (hpair : pairOuter s.layout p ≠ some q) : (s.leaveUse p b).alertAt q k = s.alertAt q k := by
  have hall : (s.withdrawAll p).alertAt q k = s.alertAt q k := by rw [alertAt_withdrawAll, if_neg h]
  have hclear (u : State) : (u.clearRecheck p .layout).alertAt q k = u.alertAt q k := by
    unfold State.alertAt
    rw [posAt_clearRecheck]
  have hmod (u : State) (f : PosRec → PosRec) : (u.modPos p f).alertAt q k = u.alertAt q k :=
    congrArg (fun r : PosRec => r.alerts.get k) (posAt_modPos_other _ _ _ _ h)
  cases hid : (s.posAt p).id with
  | none =>
    rw [leaveUse_none hid]
    exact (hmod _ _).trans ((hclear _).trans hall)
  | some i =>
    have hsame : ((s.withdrawAll p).withdrawPair p).alertAt q k = s.alertAt q k := by
      have hlayout : (s.withdrawAll p).layout = s.layout := layout_of_base (withdrawAll_base s p)
      unfold State.withdrawPair
      rw [hlayout]
      split
      · next o ho =>
        rw [alertAt_withdraw, if_neg, hall]
        rintro ⟨rfl, -⟩
        exact hpair ho
      · exact hall
    have hgive : (s.giveUp p b .layout).alertAt q k = s.alertAt q k := (hmod _ _).trans ((hclear _).trans hsame)
    rw [← hgive, leaveUse_some hid]
    unfold State.alertAt
    rw [posAt_notify]

/-- A position that stays keeps its alert records. -/
theorem alertAt_foldl_relayPosition (old new : Word) {p : Pos} (hl : leaves old new p = false)
    (ho : inUse old p = true) (hn : inUse new p = true) (k : AlertKind) (l : List Pos) (s : State) (hs : s.layout = new) :
    (l.foldl (State.relayPosition old new) s).alertAt p k = s.alertAt p k := by
  induction l generalizing s with
  | nil => rfl
  | cons q l ih =>
    rw [List.foldl_cons, ih _ ((layout_of_base (relayPosition_base old new s q)).trans hs)]
    by_cases hpq : p = q
    · rw [← hpq, relayPosition_stays hl (ho.trans hn.symm)]
    · obtain hq | ⟨hqo, hqn⟩ | ⟨hq, hu⟩ := relay_cases old new q
      · rw [relayPosition_leaves hq]
        exact alertAt_leaveUse_other s _ k hpq (hs ▸ pairOuter_leaves hl ho hn hq)
      · rw [relayPosition_enters hqo hqn]
        exact congrArg (fun r : PosRec => r.alerts.get k) (posAt_modPos_other _ _ _ _ hpq)
      · rw [relayPosition_stays hq hu]

/-- The trigger unit, the candidate list and the intake unit stay. -/
theorem relayPosition_aside (old new : Word) (s : State) (p : Pos) :
    (State.relayPosition old new s p).aside = s.aside := by
  obtain hl | ⟨ho, hn⟩ | ⟨hl, hu⟩ := relay_cases old new p
  · rw [relayPosition_leaves hl]
    cases hid : (s.posAt p).id with
    | some i =>
      rw [leaveUse_some hid, notify_aside, giveUp_aside]
    | none =>
      rw [leaveUse_none hid, modPos_aside, clearRecheck_aside, withdrawAll_aside]
  · rw [relayPosition_enters ho hn]
    rfl
  · rw [relayPosition_stays hl hu]

end Sys2Proof.Machine
end

section
/-! The layout word (O42): what follows the relaying of the positions (`State.afterRelay`): the trigger unit, the axles that
change kind, the clamp and the RECHECK requests (R3, R62, R86, R90). -/

namespace Sys2Proof.Machine
open Sys2Proof.Claim

/-! ### The axles that change (R3, R86) -/

/-- R9: the record of a withdrawn alert. -/
theorem posAt_withdraw (s : State) (p q : Pos) (k : AlertKind) : (s.withdraw p k).posAt q =
    if q = p then { s.posAt p with alerts := (s.posAt p).alerts.set k (s.alertAt p k).cleared } else s.posAt q := by
  unfold State.withdraw
  dsimp only
  split
  · rw [posAt_alertNotice, posAt_setAlert]
  · rw [posAt_setAlert]

/-- An axle of twin sides that becomes one of single sides. -/
def untwins (old new : Word) (a : Axle) : Bool := axleKind old a == .twin && axleKind new a == .single

/-- R3, R86: the record of a position after its axle has changed. -/
def PosRec.reaxled (r : PosRec) (old new : Word) (p : Pos) : PosRec :=
  { r with
    state := if r.state = .locating ∧ (axleOf p).any (axleChanges old new) = true then .unlearned else r.state
    alerts := if (axleOf p).any (untwins old new) = true ∧ inUse new p = true
      then r.alerts.set .mismatch (r.alerts.get .mismatch).cleared else r.alerts }

theorem untwins_changes {old new : Word} {a : Axle} (h : untwins old new a = true) : axleChanges old new a = true := by
  obtain ⟨ho, hn⟩ := Bool.and_eq_true_iff.mp h
  unfold axleChanges
  rw [beq_iff_eq.mp ho, beq_iff_eq.mp hn]
  rfl

theorem posAt_relayAxlePosition (old new : Word) (s : State) (p q : Pos) :
    (State.relayAxlePosition old new s p).posAt q = if q = p then (s.posAt p).reaxled old new p else s.posAt q := by
  unfold State.relayAxlePosition PosRec.reaxled
  cases hax : axleOf p with
  | none =>
    by_cases hq : q = p
    · subst hq
      simp
    · rw [if_neg hq]
  | some a =>
    by_cases hc : axleChanges old new a = true
    · have hlocate : ∀ r, (if (s.posAt p).state = .locating then s.modPos p (fun r => { r with state := .unlearned })
          else s).posAt r = if r = p then { s.posAt p with
            state := if (s.posAt p).state = .locating then .unlearned else (s.posAt p).state } else s.posAt r := by
        intro r
        by_cases hl : (s.posAt p).state = .locating
        · rw [if_pos hl, if_pos hl, posAt_modPos]
        · rw [if_neg hl, if_neg hl]
          by_cases hr : r = p
          · rw [if_pos hr, hr]
          · rw [if_neg hr]
      dsimp only
      rw [if_pos hc]
      generalize (if (s.posAt p).state = .locating then s.modPos p (fun r => { r with state := .unlearned })
          else s) = u at hlocate ⊢
      have hp := hlocate p
      rw [if_pos rfl] at hp
      have hany : (some a).any (axleChanges old new) = true := hc
      have htwin : (axleKind old a = .twin ∧ axleKind new a = .single ∧ inUse new p = true) ↔
          (some a).any (untwins old new) = true ∧ inUse new p = true := by
        simp [untwins, and_assoc]
      simp only [hany, and_true, htwin]
      split
      · next h =>
        rw [posAt_withdraw, hlocate q, hp]
        unfold State.alertAt
        rw [hp]
        by_cases hq : q = p
        · rw [if_pos hq, if_pos hq]
        · rw [if_neg hq, if_neg hq, if_neg hq]
      · exact hlocate q
    · have hno : untwins old new a = false := by
        rw [← Bool.not_eq_true]
        exact fun h => hc (untwins_changes h)
      have hc' : axleChanges old new a = false := by simpa using hc
      dsimp only
      rw [if_neg hc]
      by_cases hq : q = p
      · subst hq
        simp [hc', hno]
      · rw [if_neg hq]

theorem posAt_foldl_relayAxlePosition (old new : Word) (l : List Pos) (hl : l.Nodup) (s : State) (p : Pos) :
    (l.foldl (State.relayAxlePosition old new) s).posAt p =
      if p ∈ l then (s.posAt p).reaxled old new p else s.posAt p := by
  induction l generalizing s with
  | nil => rfl
  | cons q l ih =>
    obtain ⟨hq, hl⟩ := List.nodup_cons.mp hl
    rw [List.foldl_cons, ih hl, posAt_relayAxlePosition]
    by_cases hpq : p = q
    · subst hpq
      simp [hq]
    · simp [hpq]

theorem relayAxlePosition_aside (old new : Word) (s : State) (p : Pos) :
    (State.relayAxlePosition old new s p).aside = s.aside := by
  have hlocate : (if (s.posAt p).state = .locating then s.modPos p (fun r => { r with state := .unlearned })
      else s).aside = s.aside := by split <;> rfl
  unfold State.relayAxlePosition
  split
  · rfl
  · split
    · dsimp only
      split
      · rw [withdraw_aside, hlocate]
      · exact hlocate
    · rfl

/-! ### The clamp (R90, R98) -/

/-- R98: a clamped interval changes the queue only when its position becomes SUSPECT. -/
theorem clampInterval_trigger (s : State) (p : Pos) : (s.clampInterval p).trigger = s.trigger ∨
    ((s.posAt p).state = .bound ∧ ((s.clampInterval p).posAt p).state = .suspect) := by
  have hexpire (u : State) : (u.expire p).trigger = u.trigger ∨
      ((u.posAt p).state = .bound ∧ ((u.expire p).posAt p).state = .suspect) := by
    by_cases hb : (u.posAt p).state = .bound
    · exact .inr ⟨hb, (congrArg PosRec.state (posAt_expire_bound hb) :)⟩
    · rw [expire_unbound hb]
      exact .inl rfl
  have hreached (u : State) : (u.expireIfReached p).trigger = u.trigger ∨
      ((u.posAt p).state = .bound ∧ ((u.expireIfReached p).posAt p).state = .suspect) := by
    unfold State.expireIfReached
    split
    · exact hexpire u
    · exact .inl rfl
  unfold State.clampInterval
  split
  · unfold State.setInterval
    split
    · exact .inl rfl
    · obtain h | ⟨hb, hs⟩ := hreached (s.modPos p (fun r => { r with interval := some (clampTo (s.rangeOf p) _) }))
      · exact .inl h
      · rw [posAt_modPos_same] at hb
        exact .inr ⟨hb, hs⟩
  · exact .inl rfl

/-- What the queue of requests keeps while requests with no attempts and no tag are taken. -/
structure Admits (P : List Request → Prop) : Prop where
  take : ∀ q r, r.attempts = 0 → r.tag = 0 → P q → P (takeRequest q r)

theorem Admits.offer {P : List Request → Prop} (hP : Admits P) {s : State} {r : Request} (ha : r.attempts = 0)
    (ht : r.tag = 0) (h : P s.trigger.queue) : P (s.offer r).trigger.queue := by
  unfold State.offer
  dsimp only
  split
  · exact hP.take _ r ha ht h
  · exact h

theorem Admits.offerEach {P : List Request → Prop} (hP : Admits P) (cs : List Coil) (u : Purpose) {s : State}
    (h : P s.trigger.queue) : P (s.offerEach cs u 0).trigger.queue := by
  unfold State.offerEach
  induction cs generalizing s with
  | nil => exact h
  | cons c cs ih => exact ih (hP.offer rfl rfl h)

theorem Admits.clampInterval {P : List Request → Prop} (hP : Admits P) {s : State} (p : Pos) (h : P s.trigger.queue) :
    P (s.clampInterval p).trigger.queue := by
  have hlocate (u : State) (hu : P u.trigger.queue) : P (u.locateSilent p).trigger.queue := by
    unfold State.locateSilent
    split
    · split
      · exact hP.offer rfl rfl hu
      · exact hu
    · exact hu
  have hexpire (u : State) (hu : P u.trigger.queue) : P (u.expire p).trigger.queue := by
    by_cases hb : (u.posAt p).state = .bound
    · have htrig : ((u.suspected p).beginSilent p).trigger = u.trigger :=
        (congrArg Tables.trigger (beginSilent_tables (u.suspected p) p) :)
      rw [expire_bound hb]
      refine hlocate _ ?_
      rw [htrig]
      exact hu
    · rw [expire_unbound hb]
      exact hu
  unfold State.clampInterval
  split
  · unfold State.setInterval
    split
    · exact h
    · unfold State.expireIfReached
      split
      · exact hexpire _ h
      · exact h
  · exact h

theorem Admits.clampAll {P : List Request → Prop} (hP : Admits P) {s : State} (h : P s.trigger.queue) :
    P s.clampAll.trigger.queue := by
  have hlist (l : List Pos) (u : State) (hu : P u.trigger.queue) :
      P (l.foldl State.clampInterval u).trigger.queue := by
    induction l generalizing u with
    | nil => exact hu
    | cons p l ih => exact ih _ (hP.clampInterval p hu)
  unfold State.clampAll
  exact hlist positionsInOrder s h

/-- A queue in which every request for a coil of a set has no attempts and no tag. -/
theorem admits_fresh (torn : Coil → Bool) :
    Admits (fun q => ∀ r ∈ q, torn r.coil = true → r.attempts = 0 ∧ r.tag = 0) where
  take q r ha ht hq x hx hc := by
    unfold takeRequest at hx
    split at hx
    · obtain ⟨y, hy, rfl⟩ := List.mem_map.mp hx
      split
      · next hyr =>
        rw [if_pos hyr, merge_coil] at hc
        obtain ⟨hya, hyt⟩ := hq y hy hc
        unfold Request.merge
        split
        · exact ⟨hya, ht⟩
        · split
          · exact ⟨hya, ht⟩
          · exact ⟨hya, hyt⟩
      · next hyr =>
        rw [if_neg hyr] at hc
        exact hq y hy hc
    · obtain hx | hx := List.mem_append.mp hx
      · exact hq x hx hc
      · rw [List.mem_singleton.mp hx]
        exact ⟨ha, ht⟩

/-- A queue in which a coil has a request. -/
theorem admits_queued (c : Coil) : Admits (fun q => ∃ x ∈ q, x.coil = c) where
  take q r _ _ := by
    rintro ⟨x, hx, hc⟩
    unfold takeRequest
    split
    · refine ⟨_, List.mem_map_of_mem hx, ?_⟩
      split
      · rw [merge_coil, hc]
      · exact hc
    · exact ⟨x, List.mem_append_left _ hx, hc⟩

/-- R90: the clamp of every interval, seen from one position. -/
theorem clampAll_arrives (s : State) (p : Pos) : ∃ u, Arrives p u (u.clampInterval p) ∧ u.posAt p = s.posAt p ∧
    s.clampAll.posAt p = (u.clampInterval p).posAt p := by
  obtain ⟨u, -, hup, hfold⟩ := posAt_foldl_each clampInterval_tracks posAt_clampInterval_other s p
  exact ⟨u, clampInterval_arrives u, hup, hfold⟩

theorem clampAll_trigger {s : State} (h : ∀ p, (s.posAt p).state = .bound → (s.clampAll.posAt p).state ≠ .suspect) :
    s.clampAll.trigger = s.trigger := by
  have hlist (l : List Pos) (hl : l.Nodup) (u : State)
      (hu : ∀ p ∈ l, (u.posAt p).state = .bound → ((l.foldl State.clampInterval u).posAt p).state ≠ .suspect) :
      (l.foldl State.clampInterval u).trigger = u.trigger := by
    induction l generalizing u with
    | nil => rfl
    | cons p l ih =>
      obtain ⟨hp, hl⟩ := List.nodup_cons.mp hl
      have hkeep (l' : List Pos) (hp' : p ∉ l') (w : State) : (l'.foldl State.clampInterval w).posAt p = w.posAt p := by
        induction l' generalizing w with
        | nil => rfl
        | cons q l' ih' =>
          rw [List.mem_cons, not_or] at hp'
          exact (ih' hp'.2 _).trans (posAt_clampInterval_other w q p hp'.1)
      rw [List.foldl_cons]
      have hfirst : (u.clampInterval p).trigger = u.trigger := by
        refine (clampInterval_trigger u p).resolve_right fun ⟨hb, hs⟩ => hu p List.mem_cons_self hb ?_
        rw [List.foldl_cons, hkeep l hp]
        exact hs
      rw [ih hl _ fun q hq hb => ?_, hfirst]
      have hqp : q ≠ p := fun h => hp (h ▸ hq)
      rw [posAt_clampInterval_other u p q hqp] at hb
      exact hu q (List.mem_cons_of_mem p hq) hb
  exact hlist positionsInOrder (List.nodup_finRange 26) s fun p _ => h p

end Sys2Proof.Machine
end

section
/-! The layout word (O42): the stages of `State.takeLayout` put together. -/

namespace Sys2Proof.Machine
open Sys2Proof.Claim

/-! ### After the relaying, stage by stage -/

/-- R3, R63, R86: the records and the requests of the coils that change are dropped and the axles that change are followed. -/
def State.rebuilt (s : State) (old new : Word) : State :=
  positionsInOrder.foldl (State.relayAxlePosition old new) (s.tearDown (fun c => axleChanges old new (coilAxle c)))

theorem afterRelay_eq (s : State) (old new : Word) : s.afterRelay old new =
    (s.rebuilt old new).clampAll.offerEach
      (coilsInOrder.filter ((s.rebuilt old new).clampAll.recheckAfterLayout old new)) .recheck 0 := rfl

section
variable (s : State) (old new : Word) (p : Pos)

theorem posAt_rebuilt : (s.rebuilt old new).posAt p = (s.posAt p).reaxled old new p := by
  have hmem : p ∈ positionsInOrder := List.mem_finRange p
  rw [State.rebuilt, posAt_foldl_relayAxlePosition old new positionsInOrder (List.nodup_finRange 26), if_pos hmem]
  rfl

theorem rebuilt_aside :
    (s.rebuilt old new).aside = (s.tearDown (fun c => axleChanges old new (coilAxle c))).aside :=
  foldl_view State.aside _ (fun s p => relayAxlePosition_aside old new s p) _ _

theorem rebuilt_base : (s.rebuilt old new).base = s.base :=
  (foldl_view State.base _ (fun s p => relayAxlePosition_base old new s p) _ _).trans (tearDown_base ..)

theorem rebuilt_trigger : (s.rebuilt old new).trigger =
    { s.trigger with
      records := s.trigger.records.filter (fun r => !(axleChanges old new (coilAxle r.coil)))
      queue := s.trigger.queue.filter (fun r => !(axleChanges old new (coilAxle r.coil))) } :=
  trigger_of_aside (rebuilt_aside s old new)

/-- R66: the drop of a record can only end the claim of a candidate. -/
theorem rebuilt_candidates : (s.rebuilt old new).candidates.map (fun c => { c with claimed := false }) =
    s.candidates.map (fun c => { c with claimed := false }) := by
  rw [candidates_of_aside (rebuilt_aside s old new)]
  unfold State.tearDown State.dropRecords
  dsimp only
  rw [List.map_map]
  refine List.map_congr_left fun e _ => ?_
  dsimp only [Function.comp_apply]
  split <;> rfl

/-- R90: a record once the intervals are clamped. -/
theorem posAt_afterRelay : (s.afterRelay old new).posAt p = (s.rebuilt old new).clampAll.posAt p := by
  rw [afterRelay_eq]
  generalize (s.rebuilt old new).clampAll = u
  obtain ⟨q, hq⟩ := offerEach_shape u (coilsInOrder.filter (u.recheckAfterLayout old new)) .recheck 0
  rw [hq]
  rfl

theorem afterRelay_rest : (s.afterRelay old new).base = s.base ∧
    (s.afterRelay old new).candidates = (s.rebuilt old new).candidates ∧
    (s.afterRelay old new).trigger.records = (s.rebuilt old new).trigger.records := by
  have htracks := clampAll_tracks (s.rebuilt old new)
  have hbase := htracks.base.trans (rebuilt_base s old new)
  have hcand := htracks.candidates
  have hrecords := htracks.records
  rw [afterRelay_eq]
  generalize (s.rebuilt old new).clampAll = u at hbase hcand hrecords ⊢
  obtain ⟨q, hq⟩ := offerEach_shape u (coilsInOrder.filter (u.recheckAfterLayout old new)) .recheck 0
  rw [hq]
  exact ⟨hbase, hcand, hrecords⟩

/-- What the clamp leaves of a record: all but arrival fields, the state of a BOUND one and the SILENT record of a BOUND one. -/
theorem clampAll_leaves : (s.clampAll.posAt p).untracked = (s.posAt p).untracked ∧
    ((s.posAt p).state ≠ .bound → (s.clampAll.posAt p).state = (s.posAt p).state ∧
      (s.clampAll.posAt p).alerts = (s.posAt p).alerts) ∧
    ((s.posAt p).state = .bound → (s.clampAll.posAt p).state = .bound ∨ (s.clampAll.posAt p).state = .suspect) ∧
    ∀ k, k ≠ .silent → s.clampAll.alertAt p k = s.alertAt p k := by
  have htracks := clampAll_tracks s
  obtain ⟨u, harr, hup, hfold⟩ := clampAll_arrives s p
  have hstate := harr.state
  have hrests := harr.rests
  rw [← hfold, hup] at hstate hrests
  refine ⟨htracks.fields p, fun hb => ?_, fun hb => ?_, htracks.alerts p⟩
  · obtain ⟨hst, -, -, hal, -⟩ := hrests (.inl hb)
    exact ⟨hst, hal⟩
  · obtain h | ⟨-, h⟩ := hstate
    · exact .inl (h.trans hb)
    · exact .inr h

/-! ### The queue of requests (R62, R86) -/

theorem afterRelay_fresh : ∀ r ∈ (s.afterRelay old new).trigger.queue,
    axleChanges old new (coilAxle r.coil) = true → r.attempts = 0 ∧ r.tag = 0 := by
  have hP := admits_fresh (fun c => axleChanges old new (coilAxle c))
  rw [afterRelay_eq]
  refine hP.offerEach _ _ (hP.clampAll ?_)
  rw [rebuilt_trigger]
  intro r hr hc
  have hgone := (List.mem_filter.mp hr).2
  rw [hc] at hgone
  cases hgone

theorem afterRelay_keeps : ∀ r ∈ s.trigger.queue, axleChanges old new (coilAxle r.coil) = false →
    ∃ x ∈ (s.afterRelay old new).trigger.queue, x.coil = r.coil := by
  intro r hr hc
  have hP := admits_queued r.coil
  rw [afterRelay_eq]
  refine hP.offerEach _ _ (hP.clampAll ?_)
  rw [rebuilt_trigger]
  exact ⟨r, List.mem_filter.mpr ⟨hr, by rw [hc]; rfl⟩, rfl⟩

end

/-- R61: requests for distinct coils that have none queued join the queue behind it. -/
theorem foldl_takeRequest_new (u : Purpose) (tag : Byte) (cs : List Coil) (hd : cs.Nodup) (q : List Request)
    (hq : ∀ c ∈ cs, ∀ x ∈ q, x.coil ≠ c) :
    cs.foldl (fun q c => takeRequest q { coil := c, purpose := u, attempts := 0, tag := tag }) q =
      q ++ cs.map (fun c => { coil := c, purpose := u, attempts := 0, tag := tag }) := by
  induction cs generalizing q with
  | nil => exact (List.append_nil q).symm
  | cons c cs ih =>
    obtain ⟨hc, hd⟩ := List.nodup_cons.mp hd
    rw [List.foldl_cons, takeRequest_new (hq c List.mem_cons_self), ih hd, List.append_assoc]
    · rfl
    · intro d hdm x hx
      obtain hx | hx := List.mem_append.mp hx
      · exact hq d (List.mem_cons_of_mem c hdm) x hx
      · rw [List.mem_singleton.mp hx]
        intro h
        exact hc ((show c = d from h) ▸ hdm)

/-- R86: with no position becoming SUSPECT, the RECHECK requests of the axles that change follow the queue. -/
theorem afterRelay_queue (s : State) (old new : Word) (hrun : s.control.op = .run)
    (h : ∀ p, ((s.rebuilt old new).posAt p).state = .bound → ((s.afterRelay old new).posAt p).state ≠ .suspect) :
    (s.afterRelay old new).trigger.queue =
      s.trigger.queue.filter (fun r => !(axleChanges old new (coilAxle r.coil))) ++
        (coilsInOrder.filter (fun c => axleChanges old new (coilAxle c) && (s.afterRelay old new).available c &&
          (servedBy new c).any (fun p => ((s.afterRelay old new).posAt p).recheck))).map (newRequest .recheck) := by
  have htrigger := clampAll_trigger (s := s.rebuilt old new) fun p hb => by
    rw [← posAt_afterRelay]
    exact h p hb
  rw [rebuilt_trigger] at htrigger
  have hop := (op_of_base (clampAll_base (s.rebuilt old new))).trans ((op_of_base (rebuilt_base s old new)).trans hrun)
  rw [afterRelay_eq]
  generalize (s.rebuilt old new).clampAll = u at htrigger hop ⊢
  have hsub : ∀ c ∈ coilsInOrder.filter (u.recheckAfterLayout old new), axleChanges old new (coilAxle c) = true ∧
      u.available c = true := by
    intro c hc
    obtain ⟨hch, -⟩ := Bool.and_eq_true_iff.mp (List.mem_filter.mp hc).2
    exact Bool.and_eq_true_iff.mp hch
  have hqueue := offerEach_run .recheck 0 hop fun c hc => (hsub c hc).2
  have hnew := foldl_takeRequest_new .recheck 0 (coilsInOrder.filter (u.recheckAfterLayout old new))
    ((List.nodup_finRange 12).filter _) u.trigger.queue fun c hc x hx hxc => by
      rw [htrigger] at hx
      have hgone := (List.mem_filter.mp hx).2
      rw [hxc, (hsub c hc).1] at hgone
      cases hgone
  rw [hqueue]
  refine hnew.trans ?_
  rw [htrigger]
  rfl

/-! ### One position after the relaying -/

section
variable {u : State} {old new : Word} {p : Pos}

theorem untracked_afterRelay (u : State) (old new : Word) (p : Pos) :
    ((u.afterRelay old new).posAt p).untracked = (u.posAt p).untracked := by
  obtain ⟨h, -⟩ := clampAll_leaves (u.rebuilt old new) p
  rw [posAt_afterRelay, h, posAt_rebuilt]
  rfl

theorem bound_rebuilt (h : ((u.rebuilt old new).posAt p).state = .bound) : (u.posAt p).state = .bound := by
  rw [posAt_rebuilt, PosRec.reaxled] at h
  dsimp only at h
  split at h
  · cases h
  · exact h

theorem state_afterRelay_unbound (h : (u.posAt p).state ≠ .bound) : ((u.afterRelay old new).posAt p).state =
    if (u.posAt p).state = .locating ∧ (axleOf p).any (axleChanges old new) = true then .unlearned
    else (u.posAt p).state := by
  obtain ⟨-, hstate, -⟩ := clampAll_leaves (u.rebuilt old new) p
  rw [posAt_afterRelay, (hstate fun hb => h (bound_rebuilt hb)).1, posAt_rebuilt]
  rfl

theorem state_afterRelay_bound (h : (u.posAt p).state = .bound) :
    ((u.afterRelay old new).posAt p).state = .bound ∨ ((u.afterRelay old new).posAt p).state = .suspect := by
  obtain ⟨-, -, hstate, -⟩ := clampAll_leaves (u.rebuilt old new) p
  rw [posAt_afterRelay]
  refine hstate ?_
  rw [posAt_rebuilt, PosRec.reaxled]
  dsimp only
  rw [if_neg (by rw [h]; exact fun hl => nomatch hl.1)]
  exact h

theorem alertAt_afterRelay {k : AlertKind} (hs : k = .silent → (u.posAt p).state ≠ .bound)
    (hm : k = .mismatch → (axleOf p).any (untwins old new) = false) :
    (u.afterRelay old new).alertAt p k = u.alertAt p k := by
  obtain ⟨-, hrests, -, hothers⟩ := clampAll_leaves (u.rebuilt old new) p
  have hclamp : (u.rebuilt old new).clampAll.alertAt p k = (u.rebuilt old new).alertAt p k := by
    by_cases hk : k = .silent
    · exact congrArg (·.get k) (hrests fun hb => hs hk (bound_rebuilt hb)).2
    · exact hothers k hk
  unfold State.alertAt at hclamp ⊢
  rw [posAt_afterRelay, hclamp, posAt_rebuilt, PosRec.reaxled]
  dsimp only
  split
  · next h =>
    refine Alerts.get_set_other _ _ _ _ fun hk => ?_
    rw [hm hk] at h
    exact absurd h.1 (by decide)
  · rfl

theorem mismatch_afterRelay (h : (axleOf p).any (untwins old new) = true) (hu : inUse new p = true) :
    ((u.afterRelay old new).alertAt p .mismatch).state = .clear := by
  obtain ⟨-, -, -, hothers⟩ := clampAll_leaves (u.rebuilt old new) p
  have hclamp := hothers .mismatch (by decide)
  unfold State.alertAt at hclamp ⊢
  rw [posAt_afterRelay, hclamp, posAt_rebuilt, PosRec.reaxled]
  dsimp only
  rw [if_pos ⟨h, hu⟩, Alerts.get_set_same]
  rfl

/-- R4: a position that leaves ends without an ID. -/
theorem takeLayout_leaves (s : State) (h : leaves old new p = true) :
    ((s.takeLayout old new).posAt p).state = (if inUse new p then .unlearned else .vacant) ∧
      ((s.takeLayout old new).posAt p).id = none := by
  obtain ⟨hstate, hid⟩ := relaid_leaves s h
  rw [takeLayout_eq]
  generalize positionsInOrder.foldl (State.relayPosition old new) s = u at hstate hid ⊢
  have hne : (u.posAt p).state ≠ .bound ∧ (u.posAt p).state ≠ .locating := by
    rw [hstate]
    split <;> decide
  refine ⟨?_, ((fields_of_untracked (untracked_afterRelay u old new p)).1).trans hid⟩
  rw [state_afterRelay_unbound hne.1, if_neg fun h => hne.2 h.1, hstate]

/-- R4: a position that comes into use is UNLEARNED and empty. -/
theorem takeLayout_enters (s : State) (ho : inUse old p = false) (hn : inUse new p = true) :
    ((s.takeLayout old new).posAt p).state = .unlearned ∧
      ((s.takeLayout old new).posAt p).id = (s.posAt p).id ∧
      ((s.takeLayout old new).posAt p).epoch = (s.posAt p).epoch ∧
      sensorFieldsEmpty ((s.takeLayout old new).posAt p) := by
  obtain ⟨hstate, hid, hepoch, hempty⟩ := relaid_enters s ho hn
  rw [takeLayout_eq]
  generalize positionsInOrder.foldl (State.relayPosition old new) s = u at hstate hid hepoch hempty ⊢
  obtain ⟨hid', hepoch', hs, ht, hl, -, hk, hc, -⟩ := fields_of_untracked (untracked_afterRelay u old new p)
  obtain ⟨es, et, el, ek, ec⟩ := hempty
  refine ⟨?_, hid'.trans hid, hepoch'.trans hepoch, hs.trans es, ht.trans et, hl.trans el, hk.trans ek, hc.trans ec⟩
  rw [state_afterRelay_unbound (by rw [hstate]; decide), if_neg (by rw [hstate]; exact fun h => nomatch h.1), hstate]

/-- R3, R86: a position that neither leaves nor enters, once the positions are relaid. -/
theorem relaid_stays (s : State) (hl : leaves old new p = false) (hu : inUse old p = inUse new p) :
    ((positionsInOrder.foldl (State.relayPosition old new) s).posAt p).core =
      { (s.posAt p).core with claim := s.claimLeft old new positionsInOrder (s.posAt p).claim } :=
  core_foldl_relayPosition old new hl hu positionsInOrder (List.nodup_finRange 26) s

end

/-! ### The obligation -/

/-- What holds of every position of a state in which the bindings are consistent (R4). -/
theorem used_of_holder {s : State} (h : bindingsOk s) {p : Pos} (hid : (s.posAt p).id.isSome = true) :
    inUse s.layout p = true := by
  obtain ⟨hsome, hvac, -, -⟩ := h p
  rw [hid] at hsome
  rw [← Bool.not_eq_false]
  intro hoff
  rw [hvac.mpr hoff] at hsome
  cases hsome

theorem unused_empty {s : State} (h : bindingsOk s) {p : Pos} (hoff : inUse s.layout p = false) :
    (s.posAt p).state = .vacant ∧ (s.posAt p).id = none := by
  have hvac := (h p).2.1.mpr hoff
  refine ⟨hvac, ?_⟩
  cases hid : (s.posAt p).id with
  | none => rfl
  | some i =>
    have hused := used_of_holder h (p := p) (by rw [hid]; rfl)
    rw [hoff] at hused
    cases hused

/-- R21: the claims that a relaid layout ends are those that name the ID of a position that leaves with its flag set. -/
theorem claimLeft_eq {s : State} {old new : Word} (hused : ∀ q, (s.posAt q).id.isSome = true → inUse old q = true)
    (claim : Option SensorId) :
    (claim.isSome = true ∧ ∃ q ∈ positionsInOrder, (s.posAt q).recheck = true ∧ (s.posAt q).id = claim ∧
      leaves old new q = true) ↔
    (claim.isSome = true ∧ ∃ q : Pos, (s.posAt q).recheck = true ∧ (s.posAt q).id = claim ∧
      (inUse new q = false ∨ trailerPos old q ≠ trailerPos new q)) := by
  refine and_congr_right fun hc => exists_congr fun q => ?_
  have hmem : q ∈ positionsInOrder := List.mem_finRange q
  refine ⟨fun ⟨_, hr, hi, hl⟩ => ⟨hr, hi, ?_⟩, fun ⟨hr, hi, hgo⟩ => ⟨hmem, hr, hi, ?_⟩⟩
  · rw [leaves, Bool.and_eq_true] at hl
    by_cases hn : inUse new q = true
    · have hside := hl.2
      rw [hn, Bool.true_and] at hside
      exact .inr (by simpa using hside)
    · exact .inl (by simpa using hn)
  · have ho := hused q (by rw [hi]; exact hc)
    rw [leaves, ho]
    obtain hn | hside := hgo
    · rw [hn]
      rfl
    · simp [hside]

/-- Settles O42: the relaying position by position (`takeLayout_leaves`, `takeLayout_enters`, `relaid_stays`), then the rest
(`afterRelay_*`). -/
theorem axleLayoutIsTaken : Obligations.AxleLayoutIsTaken := by
  intro dt v s hs hv hok
  have hexec := exec_ownSetting (c := .axleLayout dt (whole v)) (w := .axleLayout) (h := whole v) (v := v) (dt := dt) rfl
    ⟨hs, whole_enables v, mergedInto_whole _ _, (layoutOk_iff v).mp hv⟩
  obtain ⟨hrun, -⟩ := hs
  have hown : (s.copied dt .axleLayout (whole v) v).applySetting .axleLayout (s.copy .axleLayout) v =
      (s.copied dt .axleLayout (whole v) v).takeLayout s.layout v := rfl
  rw [hown] at hexec
  have hlayout : (s.copied dt .axleLayout (whole v) v).layout = v := copied_copy_same
  have hsame : (∀ p, (s.copied dt .axleLayout (whole v) v).posAt p = s.posAt p) ∧
      (s.copied dt .axleLayout (whole v) v).control.op = .run ∧
      (s.copied dt .axleLayout (whole v) v).sweep = s.sweep ∧
      (s.copied dt .axleLayout (whole v) v).candidates = s.candidates ∧
      (s.copied dt .axleLayout (whole v) v).trigger = s.trigger ∧
      (s.copied dt .axleLayout (whole v) v).pending = s.pending ∧
      (s.copied dt .axleLayout (whole v) v).mem = writeWord s.mem (s.windowBase + 0) (whole v) :=
    ⟨fun _ => rfl, hrun, rfl, rfl, rfl, rfl, rfl⟩
  obtain ⟨hpos, hop, hsweep, hcand, htrig, hpending, hmem⟩ := hsame
  generalize s.copied dt .axleLayout (whole v) v = b at *
  have hbase : (b.takeLayout s.layout v).base = b.base := takeLayout_base b s.layout v
  have hmarked (u : State) : (u.marked .axleLayout (whole v)).mem = u.mem ∧
      (u.marked .axleLayout (whole v)).pending = u.pending ∧
      (u.marked .axleLayout (whole v)).candidates = u.candidates ∧
      ∀ c, (u.marked .axleLayout (whole v)).available c = u.available c := by
    rw [marked_shape]
    exact ⟨rfl, rfl, rfl, fun _ => rfl⟩
  obtain ⟨htmem, htpending, htcand, htavail⟩ := hmarked (b.takeLayout s.layout v)
  have htpos := marked_posAt (b.takeLayout s.layout v) .axleLayout (whole v)
  have httrig := marked_trigger (b.takeLayout s.layout v) .axleLayout (whole v)
  have htsweep := marked_sweep (b.takeLayout s.layout v) .axleLayout (whole v)
  have htlayout : ((b.takeLayout s.layout v).marked .axleLayout (whole v)).layout = v :=
    (marked_copy _ _ _ _).trans ((layout_of_base hbase).trans hlayout)
  generalize (b.takeLayout s.layout v).marked .axleLayout (whole v) = t at *
  have hrelay := takeLayout_eq b s.layout v
  have haside : (positionsInOrder.foldl (State.relayPosition s.layout v) b).aside = b.aside :=
    foldl_view State.aside _ (fun u p => relayPosition_aside s.layout v u p) _ _
  have hrbase : (positionsInOrder.foldl (State.relayPosition s.layout v) b).base = b.base :=
    foldl_view State.base _ (fun u p => relayPosition_base s.layout v u p) _ _
  have hstays := fun p => relaid_stays (p := p) (old := s.layout) (new := v) b
  have halerts : ∀ p, leaves s.layout v p = false → inUse s.layout p = true → inUse v p = true → ∀ k,
      (positionsInOrder.foldl (State.relayPosition s.layout v) b).alertAt p k = b.alertAt p k :=
    fun p hl ho hn k => alertAt_foldl_relayPosition s.layout v hl ho hn k positionsInOrder b hlayout
  have hleaves := fun p => takeLayout_leaves (p := p) (old := s.layout) (new := v) b
  have henters := fun p => takeLayout_enters (p := p) (old := s.layout) (new := v) b
  generalize positionsInOrder.foldl (State.relayPosition s.layout v) b = u at *
  rw [hrelay] at hbase htmem htpending htcand htavail htpos httrig htsweep hleaves henters
  obtain ⟨-, hucand, hurecords⟩ := afterRelay_rest u s.layout v
  have hutrig : u.trigger = s.trigger := (trigger_of_aside haside).trans htrig
  have hstay (p : Pos) (ho : inUse s.layout p = true) (hn : inUse v p = true)
      (hside : trailerPos s.layout p = trailerPos v p) : leaves s.layout v p = false := by
    rw [leaves, ho, hn, hside, beq_self_eq_true]
    rfl
  have hunused (p : Pos) (hn : inUse v p = false) :
      ((u.afterRelay s.layout v).posAt p).state = .vacant ∧ ((u.afterRelay s.layout v).posAt p).id = none := by
    by_cases ho : inUse s.layout p = true
    · have hgone := hleaves p (by rw [leaves, ho, hn]; rfl)
      rw [hn] at hgone
      exact hgone
    · have hoff : inUse s.layout p = false := by simpa using ho
      have hcore := hstays p (by rw [leaves, hoff]; rfl) (hoff.trans hn.symm)
      obtain ⟨hvac, hid⟩ := unused_empty hok hoff
      rw [hpos p] at hcore
      have hst : (u.posAt p).state = .vacant := (congrArg PosRec.state hcore :).trans hvac
      have hnone : (u.posAt p).id = none := (congrArg PosRec.id hcore :).trans hid
      refine ⟨?_, (fields_of_untracked (untracked_afterRelay u s.layout v p)).1.trans hnone⟩
      rw [state_afterRelay_unbound (by rw [hst]; decide), if_neg (by rw [hst]; exact fun h => nomatch h.1), hst]
  have hused : ∀ q, (b.posAt q).id.isSome = true → inUse s.layout q = true := fun q hq =>
    used_of_holder hok (by rw [← hpos]; exact hq)
  refine ⟨t, hexec, htlayout, fun p => ⟨fun hoff => ?unused, fun hn ho => ?enters, fun hn ho hside => ?crosses,
    fun hn ho hside => ?stays⟩, ?records, fun r hr hc => ?fresh, fun r hr hc => ?kept, fun hnone => ?queue, ?candidates,
    ?sweep, ?memory, ?pending⟩
  case unused =>
    rw [htpos]
    exact hunused p hoff
  case enters =>
    obtain ⟨hst, hid, hepoch, hempty⟩ := henters p ho hn
    rw [htpos]
    rw [hpos] at hid hepoch
    exact ⟨hst, hid.trans (unused_empty hok ho).2, hepoch, hempty⟩
  case crosses =>
    have hgone := hleaves p (by simp [leaves, ho, hn, hside])
    rw [hn] at hgone
    rw [htpos]
    exact hgone
  case stays =>
    have hl := hstay p ho hn hside
    have hcore := hstays p hl (ho.trans hn.symm)
    obtain ⟨hid, hepoch, hsample, -, -, -, -, hclaim, hrecheck⟩ :=
      fields_of_untracked (untracked_afterRelay u s.layout v p)
    rw [hpos p] at hcore
    have hustate : (u.posAt p).state = (s.posAt p).state := (congrArg PosRec.state hcore :)
    have halert (k : AlertKind) : t.alertAt p k = (u.afterRelay s.layout v).alertAt p k := by
      unfold State.alertAt
      rw [htpos]
    have hsame (k : AlertKind) : u.alertAt p k = s.alertAt p k := by
      rw [halerts p hl ho hn k]
      unfold State.alertAt
      rw [hpos]
    rw [htpos]
    refine ⟨hid.trans (congrArg PosRec.id hcore :), hepoch.trans (congrArg PosRec.epoch hcore :),
      hsample.trans (congrArg PosRec.sample hcore :), hrecheck.trans (congrArg PosRec.recheck hcore :), ?claim,
      fun hb => ?unbound, fun hb => state_afterRelay_bound (hustate.trans hb), fun k hk hm => ?alert, fun htwin => ?mismatch⟩
    case claim =>
      rw [hclaim.trans (congrArg PosRec.claim hcore :)]
      have hiff := claimLeft_eq (new := v) hused (s.posAt p).claim
      simp only [hpos] at hiff
      unfold State.claimLeft
      simp only [hpos, hiff]
    case unbound =>
      have hub : (u.posAt p).state ≠ .bound := by
        rw [hustate]
        exact hb
      rw [state_afterRelay_unbound hub, hustate]
    case alert =>
      rw [halert, ← hsame]
      refine alertAt_afterRelay (fun h => ?_) hm
      rw [hustate]
      exact hk h
    case mismatch =>
      rw [halert]
      exact mismatch_afterRelay htwin hn
  case records =>
    rw [httrig, hurecords, rebuilt_trigger, hutrig]
  case fresh =>
    rw [httrig] at hr
    exact afterRelay_fresh u s.layout v r hr hc
  case kept =>
    rw [httrig]
    exact afterRelay_keeps u s.layout v r (by rw [hutrig]; exact hr) hc
  case queue =>
    have hurun := (op_of_base hrbase).trans hop
    have hq := afterRelay_queue u s.layout v hurun fun p hb => ?_
    · rw [httrig, hq, hutrig]
      congr 3
      funext c
      rw [htavail]
      simp only [htpos]
    · rw [← htpos]
      obtain hl | ⟨ho, hn⟩ | ⟨hl, hu⟩ := relay_cases s.layout v p
      · rw [htpos, (hleaves p hl).1]
        split <;> decide
      · rw [htpos, (henters p ho hn).1]
        decide
      · refine hnone p ?_
        have hcore := hstays p hl hu
        rw [hpos p] at hcore
        exact (congrArg PosRec.state hcore :).symm.trans (bound_rebuilt hb)
  case candidates => rw [htcand, hucand, rebuilt_candidates, candidates_of_aside haside, hcand]
  case sweep => exact htsweep.trans ((congrArg Base.sweep hbase).trans hsweep)
  case memory => exact htmem.trans ((mem_of_base hbase).trans hmem)
  case pending => exact htpending.trans ((pending_of_base hbase rfl).trans hpending)

end Sys2Proof.Machine
end

section
/-! The lines that end an operating state (O3, O6): entering RESET, a fall of host-up, and the host transaction that both
release (R151, R162, R172, R174). -/

namespace Sys2Proof.Machine
open Sys2Proof.Claim

/-! ### A release out of LOADING and RUN (R172, R174) -/

/-- The host transactions that are carried while the part takes no write and can hold none: they change the memory, the ports
and the count of refused writes. -/
structure Carries (s t : State) : Prop where
  shape : ∃ m p x, t = { s with mem := m, ports := p, path := x } ∧ x.held = s.path.held ∧ x.queue = s.path.queue ∧
    x.bus = s.path.bus ∧ x.keptLoads = s.path.keptLoads

theorem Carries.refl (s : State) : Carries s s := ⟨s.mem, s.ports, s.path, rfl, rfl, rfl, rfl, rfl⟩

theorem Carries.trans {s t u : State} (h : Carries s t) (h' : Carries t u) : Carries s u := by
  obtain ⟨m, p, x, rfl, hheld, hqueue, hbus, hkept⟩ := h.shape
  obtain ⟨m', p', x', rfl, hheld', hqueue', hbus', hkept'⟩ := h'.shape
  exact ⟨m', p', x', rfl, hheld'.trans hheld, hqueue'.trans hqueue, hbus'.trans hbus, hkept'.trans hkept⟩

/-- The part can neither hold a host transaction nor take a write. -/
def State.letsThrough (s : State) : Prop :=
  s.path.held = none ∧ s.canHold = false ∧ s.control.op.takesWrites = false

theorem Carries.letsThrough {s t : State} (h : Carries s t) (hs : s.letsThrough) : t.letsThrough := by
  obtain ⟨m, p, x, rfl, hheld, -⟩ := h.shape
  obtain ⟨hnone, hcan, htakes⟩ := hs
  exact ⟨hheld.trans hnone, hcan, htakes⟩

theorem takeWords_refused {s : State} (h : s.control.op.takesWrites = false) (o : Nat) (ws : List HostWord) :
    s.takeWords o ws = s := by
  induction ws generalizing o with
  | nil => rfl
  | cons w ws ih =>
    have hword : s.takeWord o w = s := if_pos (.inl h)
    rw [State.takeWords, hword]
    exact ih _

theorem refuseAll_keeps (ws : List HostWord) (p : Path) (a : Nat) : (p.refuseAll a ws).held = p.held ∧
    (p.refuseAll a ws).queue = p.queue ∧ (p.refuseAll a ws).bus = p.bus ∧ (p.refuseAll a ws).keptLoads = p.keptLoads := by
  induction ws generalizing p a with
  | nil => exact ⟨rfl, rfl, rfl, rfl⟩
  | cons w ws ih =>
    obtain ⟨hheld, hqueue, hbus, hkept⟩ := ih (p.refuse a w) (a + 4)
    have hone : (p.refuse a w).held = p.held ∧ (p.refuse a w).queue = p.queue ∧ (p.refuse a w).bus = p.bus ∧
        (p.refuse a w).keptLoads = p.keptLoads := by
      unfold Path.refuse
      split <;> exact ⟨rfl, rfl, rfl, rfl⟩
    obtain ⟨h1, h2, h3, h4⟩ := hone
    exact ⟨hheld.trans h1, hqueue.trans h2, hbus.trans h3, hkept.trans h4⟩

theorem carry_carries {s : State} (h : s.control.op.takesWrites = false) (x : BusTxn) : Carries s (s.carry x) := by
  match x with
  | .read .. => exact ⟨_, _, _, rfl, rfl, rfl, rfl, rfl⟩
  | .write .passed .. => exact ⟨_, _, _, rfl, rfl, rfl, rfl, rfl⟩
  | .write .settings addr offset words =>
    have htake := takeWords_refused (s := s.carryWrite addr words) h offset words
    exact ⟨_, _, _, htake, rfl, rfl, rfl, rfl⟩
  | .write .suppressed addr _ words => exact ⟨_, _, _, rfl, refuseAll_keeps words s.path addr⟩

theorem present_carries {s : State} (h : s.letsThrough) (x : HostTxn) : Carries s (s.present x) := by
  obtain ⟨hheld, hcan, htakes⟩ := h
  cases hx : s.resolve x with
  | none =>
    rw [present_unmapped hheld hx]
    exact ⟨_, _, _, rfl, rfl, rfl, rfl, rfl⟩
  | some b =>
    rw [present_begins hheld hx, State.begin, hcan]
    exact carry_carries htakes b

theorem foldl_present_carries (l : List HostTxn) {s : State} (h : s.letsThrough) : Carries s (l.foldl State.present s) := by
  induction l generalizing s with
  | nil => exact Carries.refl s
  | cons x l ih =>
    have hx := present_carries h x
    exact hx.trans (ih (hx.letsThrough h))

/-- R174: the held host transaction, and those behind it, are carried. -/
theorem release_through {s : State} (hcan : s.canHold = false) (htakes : s.control.op.takesWrites = false) :
    ∃ m p x, s.release = { s with mem := m, ports := p, path := x } ∧ x.held = none ∧ x.queue = s.path.queue ∧
      x.bus = s.path.bus ∧ x.keptLoads = s.path.keptLoads ∧ (s.path.held = none → m = s.mem ∧ x = s.path) := by
  cases hheld : s.path.held with
  | none => exact ⟨s.mem, s.ports, s.path, release_none hheld, hheld, rfl, rfl, rfl, fun _ => ⟨rfl, rfl⟩⟩
  | some b =>
    have howes : s.owesHead = false := by rw [State.owesHead, hcan]; rfl
    have hfree : (s.hosting none false []).letsThrough := ⟨rfl, hcan, htakes⟩
    have hcarry := carry_carries htakes b (s := s.hosting none false [])
    have hall := hcarry.trans (foldl_present_carries s.path.waiting (hcarry.letsThrough hfree))
    obtain ⟨m, p, x, ht, hx, hqueue, hbus, hkept⟩ := hall.shape
    refine ⟨m, p, x, ?_, hx, hqueue, hbus, hkept, fun hnone => nomatch hnone⟩
    rw [State.release, hheld, howes]
    exact ht

/-! ### RESET (R151) -/

/-- Settles O3: the state of `State.enterReset`, then the release. -/
theorem resetEntryRestoresResetValues : Obligations.ResetEntryRestoresResetValues := by
  refine ⟨fun dt cause s hop => ?_, fun dt cause s hop => congrArg Host.Outcome.next (if_pos hop)⟩
  have hexec : exec (.resetEntry dt cause) s =
      .next (({ s.elapse dt with pins := s.pins.fail cause } : State).enterReset.release) :=
    congrArg Host.Outcome.next (if_neg hop)
  obtain ⟨m, p, x, hrel, hheld, hqueue, -, -, hsame⟩ := release_through
    (s := ({ s.elapse dt with pins := s.pins.fail cause } : State).enterReset) rfl rfl
  refine ⟨_, hexec, ?_⟩
  rw [hrel]
  refine ⟨rfl, rfl, rfl, rfl, rfl, rfl, rfl, rfl, rfl, rfl, hqueue, hheld, rfl, rfl, fun hnone => ?_⟩
  obtain ⟨hm, hx⟩ := hsame hnone
  rw [hm, hx]
  exact ⟨rfl, rfl, rfl⟩

/-! ### A fall of host-up (R162, R174) -/

/-- R162: WATCH is entered with the sweeps stopped, the path emptied and the write index at the completed one. -/
def State.wentDown (s : State) : State :=
  { s.stopSweeps with path := s.stopSweeps.path.emptied, notices := s.stopSweeps.notices.hostDown }.enterWatch

theorem hostDown_run {s : State} (h : s.control.op = .run) : s.hostDown = s.abandonRun.wentDown := by
  rw [State.hostDown, if_pos h]
  rfl

theorem hostDown_loading {s : State} (h : s.control.op = .loading) : s.hostDown = s.wentDown := by
  rw [State.hostDown, if_neg (by rw [h]; decide)]
  rfl

/-- R152: the state in which HUP has fallen. -/
def State.hupFallen (s : State) (dt : Nat) : State :=
  { s.elapse dt with pins := { s.pins with hup := false }, control := { s.control with refHup := false } }

theorem exec_hostUpFall {s : State} (dt : Nat) (hup : s.pins.hup = true) (hop : s.control.op = .loading ∨ s.control.op = .run) :
    exec (.hostUpFall dt) s = .next (s.hupFallen dt).hostDown.release := by
  have hpin : (s.elapse dt).pins.hup ≠ false := by
    change s.pins.hup ≠ false
    rw [hup]
    decide
  have hreset : s.control.op ≠ .reset := by
    obtain h | h := hop <;> rw [h] <;> decide
  change execHostUpFall dt s = _
  unfold execHostUpFall
  dsimp only
  exact (if_neg hpin).trans ((if_neg hreset).trans (congrArg Host.Outcome.next (if_pos hop)))

/-- R22, R87, R100: a record after RUN is left. -/
theorem posAt_abandonRun (s : State) (p : Pos) : s.abandonRun.posAt p =
    { s.posAt p with
      state := if (s.posAt p).state = .locating then .unlearned else (s.posAt p).state, claim := none, recheck := false
      deadline := none, reference := none } := by
  have hleft : (({ s.leaveRunPositions.dropRecords (fun _ => true) with trigger :=
      { (s.leaveRunPositions.dropRecords (fun _ => true)).trigger with queue := [] } } : State).posAt p) =
        s.leaveRunPositions.posAt p := rfl
  unfold State.abandonRun State.cancelDeadlines
  dsimp only
  rw [posAt_mapPos, hleft, State.leaveRunPositions, posAt_mapPos]

theorem abandonRun_records (s : State) : s.abandonRun.trigger.records = [] :=
  List.filter_eq_nil_iff.mpr fun _ _ h => nomatch h

/-- R26: a lane follows its enable. -/
theorem follow_eq (r : LaneRec) (high : Bool) (now : Time) : r.follow high now = { r with
    state := if high then (if r.state = .off then .settling (now + 20) else r.state) else .off } := by
  unfold LaneRec.follow
  cases high
  · rfl
  · cases h : r.state <;> simp [Config.laneSettling]

/-- R157: the lanes of a window that has just opened. -/
theorem enterWatch_lane (s : State) (l : Lane) : s.enterWatch.intake.lanes.get l = { s.intake.lanes.get l with
    state := if s.masked l then .off else if (s.intake.lanes.get l).state = .off then .settling (s.now + 20)
      else (s.intake.lanes.get l).state } := by
  unfold State.enterWatch State.startWindow
  rw [followEnables_lane, enableHigh_watching l (Or.inl rfl), follow_eq]
  change ({ s.intake.lanes.get l with state := if (!(s.masked l) && true) = true then _ else _ } : LaneRec) = _
  rw [Bool.and_true]
  cases s.masked l <;> rfl

theorem stopSweeps_setting (s : State) {x : SettingWord} (h : x ≠ .viewLag) : s.stopSweeps.setting x = s.setting x := by
  obtain ⟨hcopy, -⟩ := restartHistory_copies ({ s with sweep := { s.sweep with
    timer := none, publication := none, published := false, hold := .released, deferredFlip := false,
    deferredCount := 0 } } : State)
  unfold State.setting
  exact congrArg (bits · 0 16) (hcopy x h)

theorem stopSweeps_masked (s : State) (l : Lane) : s.stopSweeps.masked l = s.masked l := by
  obtain ⟨hcopy, -⟩ := restartHistory_copies ({ s with sweep := { s.sweep with
    timer := none, publication := none, published := false, hold := .released, deferredFlip := false,
    deferredCount := 0 } } : State)
  exact congrArg (fun w : Word => w.getLsbD (laneNum l)) (hcopy .laneMask (by decide))

/-- R142: the snoop stays when the view lag is below the history depth. -/
theorem stopSweeps_snoop {s : State} (h : s.setting .viewLag < s.setting .historyDepth) : s.stopSweeps.snoop = s.snoop := by
  have hlow : ¬ s.setting .historyDepth ≤ s.setting .viewLag := Nat.not_le.mpr h
  unfold State.stopSweeps State.restartHistory
  dsimp only
  exact congrArg (fun v => ({ s.snoop with settings := v } : Snoop)) (if_neg hlow)

/-- R142, R157, R184: the sweeps, the notice writer and the listen cycle. -/
theorem wentDown_shape (s : State) : ∃ i, s.wentDown = { s with
    intake := i
    sweep := s.wentDown.sweep
    snoop := s.stopSweeps.snoop
    path := s.wentDown.path
    notices := s.wentDown.notices
    control := { s.control with
      op := .watch, wake := false
      deepEnd := some (s.now + 60000 * s.setting .deepDelay)
      windowEnd := some (s.now + 2000), nextWindow := some (s.now + 30000) } } := by
  refine ⟨s.wentDown.intake, ?_⟩
  rw [← stopSweeps_setting s (x := .deepDelay) (by decide)]
  rfl

theorem wentDown_lane (s : State) (l : Lane) : s.wentDown.intake.lanes.get l = { s.intake.lanes.get l with
    state := if s.masked l then .off else if (s.intake.lanes.get l).state = .off then .settling (s.now + 20)
      else (s.intake.lanes.get l).state } := by
  rw [← stopSweeps_masked]
  exact enterWatch_lane _ l

/-- Settles O6: the state of `State.wentDown`, then the release, which changes the path, the ports and the memory. -/
theorem hostUpFallLeavesRun : Obligations.HostUpFallLeavesRun := by
  refine ⟨fun dt s hup hop => ?run, fun dt s hup hop hlag => ?loading⟩
  case run =>
    have hexec := exec_hostUpFall dt hup (.inr hop)
    rw [hostDown_run (s := s.hupFallen dt) hop] at hexec
    obtain ⟨m, p, x, hrel, hheld, hqueue, -, -, hsame⟩ := release_through (s := (s.hupFallen dt).abandonRun.wentDown) rfl rfl
    have hdeep : (s.hupFallen dt).abandonRun.wentDown.control.deepEnd =
        some (s.now + dt + 60000 * s.setting .deepDelay) := by
      obtain ⟨i, hshape⟩ := wentDown_shape (s.hupFallen dt).abandonRun
      rw [hshape]
      rfl
    refine ⟨_, hexec, ?_⟩
    rw [hrel]
    refine ⟨rfl, rfl, rfl, hqueue, hheld, rfl, abandonRun_records _, rfl, rfl, rfl, rfl, rfl, rfl, rfl, rfl, rfl, rfl, rfl,
      rfl, rfl, rfl, hdeep, rfl, rfl, fun q => ?_, rfl, rfl, fun hnone => (hsame hnone).1⟩
    have hpos := posAt_abandonRun (s.hupFallen dt) q
    exact ⟨(congrArg PosRec.deadline hpos :), (congrArg PosRec.reference hpos :), (congrArg PosRec.claim hpos :),
      (congrArg PosRec.recheck hpos :), (congrArg PosRec.id hpos :), (congrArg PosRec.epoch hpos :),
      (congrArg PosRec.alerts hpos :), (congrArg PosRec.state hpos :)⟩
  case loading =>
    have hexec := exec_hostUpFall dt hup (.inl hop)
    rw [hostDown_loading (s := s.hupFallen dt) hop] at hexec
    obtain ⟨m, p, x, hrel, hheld, hqueue, hbus, hkept, hsame⟩ := release_through (s := (s.hupFallen dt).wentDown) rfl rfl
    obtain ⟨i, hshape⟩ := wentDown_shape (s.hupFallen dt)
    have hsnoop := stopSweeps_snoop (s := s.hupFallen dt) hlag
    have hcontrol : (s.hupFallen dt).wentDown.control = { s.control with
        op := .watch, refHup := false, wake := false
        deepEnd := some (s.now + dt + 60000 * s.setting .deepDelay)
        windowEnd := some (s.now + dt + 2000), nextWindow := some (s.now + dt + 30000) } := by
      rw [hshape]
      rfl
    have hpathbus : (s.hupFallen dt).wentDown.path.bus = s.path.bus.map (fun b => { b with reported := false }) := by
      change ((s.path.bus.map _).map _) = _
      rw [Option.map_map]
      congr 1
      funext b
      dsimp only [Function.comp_apply]
      split <;> rfl
    refine ⟨_, hexec, ?_⟩
    rw [hrel]
    exact ⟨rfl, hcontrol, hqueue, hkept, hheld, hbus.trans hpathbus, hsnoop, wentDown_lane _, rfl, rfl, rfl, rfl, rfl,
      fun hnone => (hsame hnone).1⟩

end Sys2Proof.Machine
end

section
/-! The lines that start an operating state (O4, O5): the exit from RESET and a rise of host-up (R151, R152, R154, R161). -/

namespace Sys2Proof.Machine
open Sys2Proof.Claim

/-! ### LOADING (R154) -/

/-- R154: the LOAD READ of a settings word. -/
def loadRead (w : SettingWord) : QEntry := { access := .read, offset := w.offset, origin := .load }

/-- R145: no write is pending in a queue of reads. -/
theorem pendingWrite_reads (l : List SettingWord) (o : Nat) : pendingWrite (l.map loadRead) o = none := by
  induction l with
  | nil => rfl
  | cons w l ih => exact ih

/-- R154, R168: LOAD READs that find room join the queue one after the other. -/
theorem foldl_offerLoad (l done : List SettingWord) (s : State) (hadmits : s.admits = true)
    (hqueue : s.path.queue = done.map loadRead) (hkept : s.path.keptLoads = []) (hroom : done.length + l.length ≤ 40) :
    l.foldl State.offerLoad s = { s with path := { s.path with queue := (done ++ l).map loadRead } } := by
  induction l generalizing done s with
  | nil => rw [List.foldl_nil, List.append_nil, ← hqueue]
  | cons w l ih =>
    rw [List.length_cons] at hroom
    have hone : s.offerLoad w = { s with path := { s.path with queue := (done ++ [w]).map loadRead } } := by
      have hfits : s.roomForProducer = true := by
        refine roomForProducer_iff.mpr ⟨hadmits, ?_⟩
        rw [hqueue, List.length_map]
        omega
      unfold State.offerLoad
      rw [hqueue, pendingWrite_reads, hkept, hfits, List.map_append]
      rfl
    have hlen : (done ++ [w]).length + l.length ≤ 40 := by
      rw [List.length_append, List.length_singleton]
      omega
    rw [List.foldl_cons, hone, List.append_cons done w l]
    exact ih (done ++ [w]) { s with path := { s.path with queue := (done ++ [w]).map loadRead } } hadmits rfl hkept hlen

/-- R154: the part enters LOADING with an empty queue and no kept read. -/
theorem startLoading_empty {s : State} (hhup : s.control.refHup = true) (hqueue : s.path.queue = [])
    (hkept : s.path.keptLoads = []) : ∃ i, s.startLoading = { s with
      intake := i, control := { s.control with op := .loading }
      path := { s.path with queue := (settingWords.filter (fun w => !(s.isLoaded w))).map loadRead } } := by
  have hlen : (settingWords.filter (fun w => !(s.isLoaded w))).length ≤ 35 := List.length_filter_le _ settingWords
  refine ⟨({ s with control := { s.control with op := .loading } } : State).followEnables.intake, ?_⟩
  exact foldl_offerLoad (settingWords.filter (fun w => !(s.isLoaded w))) []
    ({ s with control := { s.control with op := .loading } } : State).followEnables
    (admits_iff.mpr ⟨hhup, fun h => nomatch h⟩) hqueue hkept (by rw [List.length_nil]; omega)

/-! ### The exit from RESET (R151) -/

/-- R151: the references are taken. -/
def State.outOfReset (s : State) (dt : Nat) : State :=
  { s.elapse dt with
    pins := { s.pins with resetN := true, supplyOk := true }
    control := s.control.takeReferences { s.pins with resetN := true, supplyOk := true } }

theorem exec_resetExit {s : State} (dt : Nat) (h : s.control.op = .reset) : exec (.resetExit dt) s =
    .next (if s.pins.hup then (s.outOfReset dt).startLoading else (s.outOfReset dt).enterWatch) := if_pos h

/-- Settles O4: `startLoading_empty` with HUP high, the first listen window with HUP low. -/
theorem resetExitEntersLoadingOrWatch : Obligations.ResetExitEntersLoadingOrWatch := by
  refine ⟨fun dt s hop hup hqueue hkept => ?high, fun dt s hop hup => ?low⟩
  case high =>
    obtain ⟨i, hload⟩ := startLoading_empty (s := s.outOfReset dt) hup hqueue hkept
    refine ⟨_, (exec_resetExit dt hop).trans (congrArg Host.Outcome.next (if_pos hup)), ?_⟩
    rw [hload]
    exact ⟨rfl, rfl, rfl, rfl, hup, rfl, rfl, rfl, hkept, rfl, rfl, rfl, rfl⟩
  case low =>
    refine ⟨_, (exec_resetExit dt hop).trans (congrArg Host.Outcome.next (if_neg (by rw [hup]; decide))), rfl, hup, rfl,
      rfl, rfl, rfl, rfl, fun l hmask hoff => ?_, rfl, rfl, rfl, rfl, rfl⟩
    exact startWindow_lane (Or.inl rfl) hmask hoff

/-! ### A rise of host-up (R152, R161) -/

/-- R152: HUP has risen and the listen cycle has ended. -/
def State.hupRisen (s : State) (dt : Nat) : State :=
  ({ s.elapse dt with pins := { s.pins with hup := true }, control := { s.control with refHup := true } } : State).leaveWatch

theorem exec_hostUpRise {s : State} (dt : Nat) (hup : s.pins.hup = false)
    (hop : s.control.op = .watch ∨ s.control.op = .deepWatch) : exec (.hostUpRise dt) s =
      .next (if s.control.settingsLoaded then (s.hupRisen dt).enterRun else (s.hupRisen dt).startLoading) := by
  have hpin : ¬ (s.elapse dt).pins.hup = true := by
    change ¬ s.pins.hup = true
    rw [hup]
    decide
  have hreset : s.control.op ≠ .reset := by
    obtain h | h := hop <;> rw [h] <;> decide
  change execHostUpRise dt s = _
  unfold execHostUpRise
  dsimp only
  exact (if_neg hpin).trans ((if_neg hreset).trans (congrArg Host.Outcome.next (if_pos hop)))

/-- R161: every quiet count is 0. -/
theorem enterRun_quietCount (s : State) (l : Lane) : (s.enterRun.intake.lanes.get l).quietCount = 0 := by
  obtain ⟨q, hq⟩ := offerOnEntry_shape s.running.writeParked.ready
  rw [enterRun_eq, hq]
  exact congrArg LaneRec.quietCount (Lanes.get_tabulate _ l)

/-- Settles O5: the entry into RUN (`enterRun_shape`) or into LOADING (`startLoading_empty`). -/
theorem hostUpRiseEntersRunOrLoading : Obligations.HostUpRiseEntersRunOrLoading := by
  refine ⟨fun dt s hup hop hloaded => ?run, fun dt s hup hop hloaded hqueue hkept => ?loading⟩
  case run =>
    have hquiet := enterRun_quietCount (s.hupRisen dt)
    obtain ⟨n, p, i, q, hrun⟩ := enterRun_shape (s.hupRisen dt)
    have hpos (x : Pos) : (s.hupRisen dt).enterRun.posAt x = (s.posAt x).armed (s.now + dt) := by
      rw [hrun]
      exact posAt_mapPos (s.hupRisen dt) (fun _ r => r.armed (s.now + dt)) x
    refine ⟨_, (exec_hostUpRise dt hup hop).trans (congrArg Host.Outcome.next (if_pos hloaded)), ?_⟩
    generalize (s.hupRisen dt).enterRun = t at hrun hpos hquiet ⊢
    have hrest : t.control.op = .run ∧ t.control.refHup = true ∧ t.pins.hup = true ∧ t.control.deepEnd = none ∧
        t.control.nextWindow = none ∧ t.control.windowEnd = none ∧ t.control.wake = false ∧ t.control.parked = [] ∧
        t.sweep.timer = some (s.now + dt + 1000 * s.setting .sweepPeriod) ∧ t.mem = s.mem ∧ t.snoop = s.snoop ∧
        t.pending = s.pending := by
      rw [hrun]
      exact ⟨rfl, rfl, rfl, rfl, rfl, rfl, rfl, rfl, rfl, rfl, rfl, rfl⟩
    obtain ⟨h1, h2, h3, h4, h5, h6, h7, h8, h9, hmem, hsnoop, hpending⟩ := hrest
    refine ⟨h1, h2, h3, h4, h5, h6, h7, h8, h9, fun x => ?deadline, hquiet, fun x => ?binding, hmem, hsnoop, hpending⟩
    case deadline =>
      rw [hpos, PosRec.armed]
      simp
    case binding =>
      rw [hpos]
      exact ⟨rfl, rfl, rfl⟩
  case loading =>
    obtain ⟨i, hload⟩ := startLoading_empty (s := s.hupRisen dt) rfl hqueue hkept
    refine ⟨_, (exec_hostUpRise dt hup hop).trans (congrArg Host.Outcome.next (if_neg (by rw [hloaded]; decide))), ?_⟩
    rw [hload]
    exact ⟨rfl, rfl, rfl, rfl, rfl, rfl, rfl, rfl, rfl, rfl, rfl⟩

end Sys2Proof.Machine
end

section
/-! The lines that keep the operating state (O7, O8): ignition and trailer-present (R18, R61, R62, R82, R83, R85, R153). -/

namespace Sys2Proof.Machine
open Sys2Proof.Claim

/-! ### Offers for a list of coils (R61, R62) -/

/-- R62: a queued request after the offers of a purpose for a list of coils. -/
def Request.offered (cs : List Coil) (u : Purpose) (r : Request) : Request :=
  if r.coil ∈ cs then r.merge (newRequest u r.coil) else r

theorem offered_coil (cs : List Coil) (u : Purpose) (r : Request) : (r.offered cs u).coil = r.coil := by
  unfold Request.offered
  split
  · exact merge_coil ..
  · rfl

/-- R62: one offer changes the requests that are queued for its coil, or joins the tail. -/
theorem takeRequest_offered (q : List Request) (u : Purpose) (c : Coil) : takeRequest q (newRequest u c) =
    q.map (Request.offered [c] u) ++ (if q.any (fun r => r.coil == c) then [] else [newRequest u c]) := by
  unfold takeRequest
  by_cases hany : q.any (fun x => x.coil == c) = true
  · have hthis : q.any (fun x => x.coil == (newRequest u c).coil) = true := hany
    rw [if_pos hthis, if_pos hany, List.append_nil]
    refine List.map_congr_left fun x _ => ?_
    unfold Request.offered
    by_cases hx : x.coil = c
    · rw [if_pos (show x.coil = (newRequest u c).coil from hx), if_pos (List.mem_singleton.mpr hx), hx]
    · rw [if_neg (show ¬ x.coil = (newRequest u c).coil from hx), if_neg (fun h => hx (List.mem_singleton.mp h))]
  · have hthis : ¬ q.any (fun x => x.coil == (newRequest u c).coil) = true := hany
    have hsame : q.map (Request.offered [c] u) = q := by
      refine (List.map_congr_left fun x hx => ?_).trans (List.map_id q)
      refine if_neg fun h => hany ?_
      exact List.any_eq_true.mpr ⟨x, hx, beq_iff_eq.mpr (List.mem_singleton.mp h)⟩
    rw [if_neg hthis, if_neg hany, hsame]

/-- R62: the offers for distinct coils, one after the other. -/
theorem foldl_takeRequest_offered (u : Purpose) (cs : List Coil) (hd : cs.Nodup) (q : List Request) :
    cs.foldl (fun q c => takeRequest q (newRequest u c)) q =
      q.map (Request.offered cs u) ++
        (cs.filter (fun c => !(q.any (fun r => r.coil == c)))).map (newRequest u) := by
  induction cs generalizing q with
  | nil =>
    have hsame : q.map (Request.offered [] u) = q :=
      (List.map_congr_left fun r _ => if_neg List.not_mem_nil).trans (List.map_id q)
    rw [List.foldl_nil, hsame]
    exact (List.append_nil q).symm
  | cons c cs ih =>
    obtain ⟨hc, hd⟩ := List.nodup_cons.mp hd
    have htwice (r : Request) : (r.offered [c] u).offered cs u = r.offered (c :: cs) u := by
      unfold Request.offered
      by_cases hr : r.coil = c
      · rw [if_pos (List.mem_singleton.mpr hr), merge_coil, hr, if_neg hc, if_pos List.mem_cons_self]
      · have hone : r.coil ∉ [c] := fun h => hr (List.mem_singleton.mp h)
        rw [if_neg hone]
        by_cases hin : r.coil ∈ cs
        · rw [if_pos hin, if_pos (List.mem_cons_of_mem c hin)]
        · rw [if_neg hin, if_neg (List.not_mem_cons_of_ne_of_not_mem hr hin)]
    have htail (x : List Request) (hx : ∀ r ∈ x, r.coil = c) : x.map (Request.offered cs u) = x :=
      (List.map_congr_left fun r hr => if_neg (by rw [hx r hr]; exact hc)).trans (List.map_id x)
    have hany (x : List Request) (hx : ∀ r ∈ x, r.coil = c) (d : Coil) (hdc : d ∈ cs) :
        (q.map (Request.offered [c] u) ++ x).any (fun r => r.coil == d) = q.any (fun r => r.coil == d) := by
      have hno : x.any (fun r => r.coil == d) = false := by
        refine List.any_eq_false.mpr fun r hr h => hc ?_
        rw [← hx r hr, beq_iff_eq.mp h]
        exact hdc
      rw [List.any_append, hno, Bool.or_false, List.any_map]
      congr 1
      funext r
      exact congrArg (· == d) (offered_coil [c] u r)
    have hx : ∀ r ∈ (if q.any (fun r => r.coil == c) then [] else [newRequest u c]), r.coil = c := by
      intro r hr
      split at hr
      · cases hr
      · rw [List.mem_singleton.mp hr]
        rfl
    rw [List.foldl_cons, takeRequest_offered, ih hd, List.map_append, htail _ hx, List.map_map,
      List.filter_congr fun d hdc => by rw [hany _ hx d hdc], List.append_assoc]
    congr 1
    · exact List.map_congr_left fun r _ => htwice r
    · rw [List.filter_cons]
      cases q.any (fun r => r.coil == c) <;> rfl

/-- R61, R62: the offers of a purpose for available coils in RUN. -/
theorem offerEach_offered {s : State} {cs : List Coil} (u : Purpose) (hrun : s.control.op = .run) (hd : cs.Nodup)
    (havail : ∀ c ∈ cs, s.available c = true) : s.offerEach cs u 0 = { s with trigger := { s.trigger with
      queue := s.trigger.queue.map (Request.offered cs u) ++
        (cs.filter (fun c => !(isQueued s c))).map (newRequest u) } } := by
  rw [offerEach_run u 0 hrun havail]
  have hqueue := foldl_takeRequest_offered u cs hd s.trigger.queue
  exact congrArg (fun q => ({ s with trigger := { s.trigger with queue := q } } : State)) hqueue

/-- R62: a RECHECK leaves a queued request as it stands. -/
theorem offered_recheck (cs : List Coil) (r : Request) : r.offered cs .recheck = r := by
  have hmerge : r.merge (newRequest .recheck r.coil) = r := by
    exact (if_neg (Nat.not_lt_zero r.purpose.rank)).trans (if_neg fun h => nomatch h.2)
  unfold Request.offered
  rw [hmerge, ite_self]

/-- R62: an ATTACH gives its purpose and tag to a queued RECHECK. -/
theorem offered_attach (cs : List Coil) (r : Request) : r.offered cs .attach =
    if r.coil ∈ cs ∧ r.purpose = .recheck then { r with purpose := .attach, tag := 0 } else r := by
  have hrank : r.purpose.rank < Purpose.rank .attach ↔ r.purpose = .recheck := by cases r.purpose <;> decide
  have hmerge : r.merge (newRequest .attach r.coil) =
      if r.purpose = .recheck then { r with purpose := .attach, tag := 0 } else r := by
    by_cases hr : r.purpose = .recheck
    · rw [if_pos hr]
      exact if_pos (hrank.mpr hr)
    · rw [if_neg hr]
      exact (if_neg fun h => hr (hrank.mp h)).trans (if_neg fun h => nomatch h.2)
  unfold Request.offered
  rw [hmerge, ite_and]

theorem servesState_eq (s : State) (f : BindState → Bool) (l : List BindState) (h : ∀ b, f b = l.contains b) (c : Coil) :
    s.servesState c f = servesOneOf s c l := by
  unfold State.servesState servesOneOf
  simp only [h]

theorem recheckCoils_nodup (s : State) : (recheckCoils s).Nodup := (List.nodup_finRange 12).filter _

theorem attachCoils_nodup (s : State) : (attachCoils s).Nodup := (List.nodup_finRange 12).filter _

theorem offerRechecks_run {s : State} (hrun : s.control.op = .run) : s.offerRechecks =
    { s with trigger := { s.trigger with
      queue := s.trigger.queue ++ ((recheckCoils s).filter (fun c => !(isQueued s c))).map (newRequest .recheck) } } := by
  have hcoils : coilsInOrder.filter (fun c => s.available c &&
      s.servesState c (fun b => b == .bound || b == .suspect || b == .conflict)) = recheckCoils s := by
    have hserves := servesState_eq s (fun b => b == .bound || b == .suspect || b == .conflict)
      [.bound, .suspect, .conflict] (by intro b; cases b <;> rfl)
    unfold recheckCoils
    simp only [hserves]
  have hqueue : s.trigger.queue.map (Request.offered (recheckCoils s) .recheck) = s.trigger.queue :=
    (List.map_congr_left fun r _ => offered_recheck _ r).trans (List.map_id _)
  unfold State.offerRechecks
  rw [hcoils, offerEach_offered .recheck hrun (recheckCoils_nodup s) fun c hc => ?_, hqueue]
  exact (Bool.and_eq_true_iff.mp (List.mem_filter.mp hc).2).1

theorem offerAttaches_run {s : State} (hrun : s.control.op = .run) (htrl : s.control.refTrl = true) : s.offerAttaches =
    { s with trigger := { s.trigger with
      queue := s.trigger.queue.map (fun r => if r.coil ∈ attachCoils s ∧ r.purpose = .recheck
          then { r with purpose := .attach, tag := 0 } else r) ++
        ((attachCoils s).filter (fun c => !(isQueued s c))).map (newRequest .attach) } } := by
  have havail (c : Coil) : s.available c = coilExists s.layout c := by
    unfold State.available
    rw [htrl, Bool.or_true, Bool.and_true]
  have hcoils : coilsInOrder.filter (fun c => s.available c && axleTrailer s.layout (coilAxle c) &&
      s.servesState c (fun b => b == .detached || b == .unlearned)) = attachCoils s := by
    have hserves := servesState_eq s (fun b => b == .detached || b == .unlearned) [.detached, .unlearned]
      (by intro b; cases b <;> rfl)
    unfold attachCoils
    simp only [havail, hserves]
  have hqueue : s.trigger.queue.map (Request.offered (attachCoils s) .attach) =
      s.trigger.queue.map (fun r => if r.coil ∈ attachCoils s ∧ r.purpose = .recheck
        then { r with purpose := .attach, tag := 0 } else r) :=
    List.map_congr_left fun r _ => offered_attach _ r
  unfold State.offerAttaches
  rw [hcoils, offerEach_offered .attach hrun (attachCoils_nodup s) fun c hc => ?_, hqueue]
  have hboth := (Bool.and_eq_true_iff.mp (List.mem_filter.mp hc).2).1
  rw [havail]
  exact (Bool.and_eq_true_iff.mp hboth).1

/-- R153: IGN has risen. -/
def State.ignRisen (s : State) (dt : Nat) : State :=
  { s.elapse dt with pins := { s.pins with ign := true }, control := { s.control with refIgn := true } }

/-- R153: TRL has risen. -/
def State.trlRisen (s : State) (dt : Nat) : State :=
  { s.elapse dt with pins := { s.pins with trl := true }, control := { s.control with refTrl := true } }

theorem exec_ignitionRise {s : State} (dt : Nat) (h : s.pins.ign = false) (hop : s.control.op ≠ .reset) :
    exec (.ignitionRise dt) s =
      .next (if s.control.op = .run then (s.ignRisen dt).offerRechecks else s.ignRisen dt) :=
  (if_neg (show ¬ s.pins.ign = true by rw [h]; decide)).trans (if_neg hop)

theorem exec_trailerPresentRise {s : State} (dt : Nat) (h : s.pins.trl = false) (hop : s.control.op ≠ .reset) :
    exec (.trailerPresentRise dt) s =
      .next (if s.control.op = .run then (s.trlRisen dt).offerAttaches else s.trlRisen dt) :=
  (if_neg (show ¬ s.pins.trl = true by rw [h]; decide)).trans (if_neg hop)

/-- Settles O7: the offers are `offerRechecks_run` and `offerAttaches_run`. -/
theorem lineEdgesQueueRequests : Obligations.LineEdgesQueueRequests := by
  have hfree {op : OpState} (h : op = .run) : op ≠ .reset := by rw [h]; decide
  refine ⟨fun dt s h hrun => ?_, fun dt s h hrun => ?_, fun dt s h hrun hop => ?_, fun dt s h hrun hop => ?_,
    fun dt s hop => ?_, fun dt s hop => ⟨?_, ?_, ?_⟩⟩
  · rw [exec_ignitionRise dt h (hfree hrun), if_pos hrun, offerRechecks_run (s := s.ignRisen dt) hrun]
    rfl
  · rw [exec_trailerPresentRise dt h (hfree hrun), if_pos hrun, offerAttaches_run (s := s.trlRisen dt) hrun rfl]
    have hcoils : attachCoils (s.trlRisen dt) = attachCoils s := rfl
    rw [hcoils]
    rfl
  · rw [exec_ignitionRise dt h hop, if_neg hrun]
    rfl
  · rw [exec_trailerPresentRise dt h hop, if_neg hrun]
    rfl
  · exact congrArg Host.Outcome.next (if_neg hop)
  · by_cases hhigh : s.pins.ign = true
    · refine (if_pos (show (s.elapse dt).pins.ign = true from hhigh)).trans ?_
      rw [← hhigh]
      rfl
    · exact (if_neg hhigh).trans (if_pos hop)
  · exact congrArg Host.Outcome.next (if_pos hop)
  · by_cases hhigh : s.pins.trl = true
    · refine (if_pos (show (s.elapse dt).pins.trl = true from hhigh)).trans ?_
      rw [← hhigh]
      rfl
    · exact (if_neg hhigh).trans (if_pos hop)

/-! ### The fall of trailer-present (R18, R85) -/

/-- R18: the state of a trailer position without its trailer. -/
def BindState.withoutTrailer : BindState → BindState
  | .bound => .detached
  | .suspect => .detached
  | .conflict => .detached
  | .locating => .unlearned
  | .vacant => .vacant
  | .unlearned => .unlearned
  | .detached => .detached

/-- R18: the states that become DETACHED. -/
def BindState.onTrailer : BindState → Bool
  | .bound | .suspect | .conflict => true
  | .vacant | .unlearned | .locating | .detached => false

theorem withoutTrailer_of_onTrailer : ∀ {b : BindState}, b.onTrailer = true → b.withoutTrailer = .detached
  | .bound, _ => rfl
  | .suspect, _ => rfl
  | .conflict, _ => rfl

/-- R9: an entered state changes the alerts besides. -/
theorem core_enter (s : State) (p q : Pos) (b : BindState) : ((s.enter p b).posAt q).core =
    if q = p then { (s.posAt p).core with state := b } else (s.posAt q).core := by
  have htables : (if b.evaluated then s else s.withdrawAll p).tables = s.tables := by
    split
    · rfl
    · exact withdrawAll_tables s p
  unfold State.enter
  dsimp only
  generalize (if b.evaluated then s else s.withdrawAll p) = u at htables
  have hcore := core_of_tables htables
  by_cases hq : q = p
  · subst hq
    rw [posAt_modPos_same, if_pos rfl, ← hcore]
    rfl
  · rw [posAt_modPos_other _ _ _ _ hq, if_neg hq, hcore]

/-- R18: what the fall of TRL leaves of a trailer position. -/
theorem core_detachOne_same (s : State) (p : Pos) : ((s.detachOne p).posAt p).core =
    if (s.posAt p).state.onTrailer = true
      then { (s.posAt p).core with state := .detached, deadline := none, claim := none, recheck := false }
      else { (s.posAt p).core with state := (s.posAt p).state.withoutTrailer } := by
  have hgone : ((((s.enter p .detached).clearRecheck p .trailer).modPos p
      (fun r => { r with deadline := none, claim := none })).posAt p).core =
        { (s.posAt p).core with state := .detached, deadline := none, claim := none, recheck := false } := by
    have hcore := core_enter s p p .detached
    rw [if_pos rfl] at hcore
    generalize s.enter p .detached = u at hcore ⊢
    rw [posAt_modPos_same, posAt_clearRecheck, if_pos rfl]
    generalize u.posAt p = r at hcore ⊢
    change ({ r.core with deadline := none, claim := none, recheck := false } : PosRec) = _
    rw [hcore]
  have hstays {b : BindState} (hst : (s.posAt p).state = b) :
      (s.posAt p).core = { (s.posAt p).core with state := b } := by
    rw [← hst]
    rfl
  unfold State.detachOne
  cases hst : (s.posAt p).state with
  | locating =>
    dsimp only
    rw [posAt_modPos_same]
    rfl
  | bound => exact hgone
  | suspect => exact hgone
  | conflict => exact hgone
  | vacant => exact hstays hst
  | unlearned => exact hstays hst
  | detached => exact hstays hst

theorem keptBut_detachOne (s : State) {p q : Pos} (h : q ≠ p) : (s.posAt q).keptBut ((s.detachOne p).posAt q) := by
  have hgone : (s.posAt q).keptBut ((((s.enter p .detached).clearRecheck p .trailer).modPos p
      (fun r => { r with deadline := none, claim := none })).posAt q) := by
    have hcore := core_enter s p q .detached
    rw [if_neg h] at hcore
    generalize s.enter p .detached = u at hcore ⊢
    rw [posAt_modPos_other _ _ _ _ h, posAt_clearRecheck, if_neg h]
    exact PosRec.keptBut_trans (PosRec.keptBut_of_core hcore) ⟨_, claimAfter_cases u p .trailer _, rfl⟩
  unfold State.detachOne
  split
  · rw [posAt_modPos_other _ _ _ _ h]
    exact PosRec.keptBut_refl _
  · exact hgone
  · exact hgone
  · exact hgone
  all_goals exact PosRec.keptBut_refl _

theorem enter_aside (s : State) (p : Pos) (b : BindState) : (s.enter p b).aside = s.aside := by
  unfold State.enter
  dsimp only
  rw [modPos_aside]
  split
  · rfl
  · exact withdrawAll_aside s p

theorem detachOne_aside (s : State) (p : Pos) : (s.detachOne p).aside = s.aside := by
  have hgone : (((s.enter p .detached).clearRecheck p .trailer).modPos p
      (fun r => { r with deadline := none, claim := none })).aside = s.aside := by
    rw [modPos_aside, clearRecheck_aside, enter_aside]
  unfold State.detachOne
  split
  · rfl
  · exact hgone
  · exact hgone
  · exact hgone
  all_goals rfl

/-- R18: the notices of the detached positions change no record and no list. -/
theorem detachTrailer_tables (s : State) : s.detachTrailer.tables =
    ((positionsInOrder.filter (fun p => trailerPos s.layout p)).foldl State.detachOne s).tables :=
  foldl_view State.tables _ (fun t p =>
    tables_of_vehicle (notify_vehicle t .trailerDetached (some p) 0 ((t.posAt p).id.getD 0) 0)) _ _

theorem detachTrailer_trigger (s : State) : s.detachTrailer.trigger = s.trigger :=
  (congrArg Tables.trigger (detachTrailer_tables s) :).trans
    (trigger_of_aside (foldl_view State.aside State.detachOne detachOne_aside _ s))

/-- R18: the record of a position after the fall of TRL. -/
theorem detachTrailer_at (s : State) (p : Pos) :
    (trailerPos s.layout p = false → (s.posAt p).keptBut (s.detachTrailer.posAt p)) ∧
    (trailerPos s.layout p = true → ∃ u : State, (s.posAt p).keptBut (u.posAt p) ∧
      ((u.detachOne p).posAt p).keptBut (s.detachTrailer.posAt p)) := by
  have hcore := core_of_tables (detachTrailer_tables s) p
  obtain ⟨hout, hin⟩ := foldl_keptBut_at (fun s _ _ h => keptBut_detachOne s h)
    (positionsInOrder.filter (fun p => trailerPos s.layout p)) ((List.nodup_finRange 26).filter _) s p
  have hmem : p ∈ positionsInOrder := List.mem_finRange p
  refine ⟨fun h => ?_, fun h => ?_⟩
  · refine PosRec.keptBut_trans (hout fun hp => ?_) (PosRec.keptBut_of_core hcore)
    rw [(List.mem_filter.mp hp).2] at h
    cases h
  · obtain ⟨u, hu, hfold⟩ := hin (List.mem_filter.mpr ⟨hmem, h⟩)
    exact ⟨u, hu, PosRec.keptBut_trans hfold (PosRec.keptBut_of_core hcore)⟩

theorem claim_of_kept {r u : PosRec} (h : r.keptBut u) (hc : r.claim = none) : u.claim = none := by
  obtain ⟨x, hx, h⟩ := h
  have hnone : x = none := hx.elim (fun h => h.trans hc) fun h => h
  exact (congrArg PosRec.claim h :).trans hnone

/-- R18: a trailer position after the fall of TRL, the claims of its neighbours' rechecks besides. -/
theorem detached_of_kept {r v : PosRec} {u : State} {p : Pos} (hu : r.keptBut (u.posAt p))
    (hv : ((u.detachOne p).posAt p).keptBut v) :
    v.state = r.state.withoutTrailer ∧ v.id = r.id ∧ v.epoch = r.epoch ∧ v.sample = r.sample ∧
      (r.state.onTrailer = true → v.deadline = none ∧ v.claim = none ∧ v.recheck = false) := by
  have hcore := core_detachOne_same u p
  rw [PosRec.keptBut_state hu] at hcore
  generalize (u.detachOne p).posAt p = x at hcore hv
  have hx : x.state = r.state.withoutTrailer ∧ x.id = (u.posAt p).id ∧ x.epoch = (u.posAt p).epoch ∧
      x.sample = (u.posAt p).sample ∧
      (r.state.onTrailer = true → x.deadline = none ∧ x.claim = none ∧ x.recheck = false) := by
    split at hcore
    · next hon =>
      have hstate : r.state.withoutTrailer = .detached := withoutTrailer_of_onTrailer hon
      exact ⟨(congrArg PosRec.state hcore :).trans hstate.symm, (congrArg PosRec.id hcore :), (congrArg PosRec.epoch hcore :),
        (congrArg PosRec.sample hcore :), fun _ => ⟨(congrArg PosRec.deadline hcore :), (congrArg PosRec.claim hcore :),
          (congrArg PosRec.recheck hcore :)⟩⟩
    · next hoff =>
      exact ⟨(congrArg PosRec.state hcore :), (congrArg PosRec.id hcore :), (congrArg PosRec.epoch hcore :),
        (congrArg PosRec.sample hcore :), fun hon => absurd hon hoff⟩
  obtain ⟨hst, hid, hepoch, hsample, hgone⟩ := hx
  refine ⟨(PosRec.keptBut_state hv).trans hst, (PosRec.keptBut_id hv).trans (hid.trans (PosRec.keptBut_id hu)),
    (PosRec.keptBut_epoch hv).trans (hepoch.trans (PosRec.keptBut_epoch hu)),
    (PosRec.keptBut_sample hv).trans (hsample.trans (PosRec.keptBut_sample hu)), fun hon => ?_⟩
  obtain ⟨hd, hc, hr⟩ := hgone hon
  exact ⟨(PosRec.keptBut_deadline hv).trans hd, claim_of_kept hv hc, (recheck_of_kept hv).trans hr⟩

theorem onTrailer_eq (b : BindState) : b.onTrailer = (b == .bound || b == .suspect || b == .conflict) := by
  cases b <;> rfl

/-- R153: TRL has fallen. -/
def State.trlFallen (s : State) (dt : Nat) : State :=
  { s.elapse dt with pins := { s.pins with trl := false }, control := { s.control with refTrl := false } }

theorem exec_trailerPresentFall {s : State} (dt : Nat) (h : s.pins.trl = true) (hop : s.control.op ≠ .reset) :
    exec (.trailerPresentFall dt) s =
      .next ((s.trlFallen dt).tearDown (fun c => axleTrailer s.layout (coilAxle c))).detachTrailer :=
  (if_neg (show ¬ s.pins.trl = false by rw [h]; decide)).trans (if_neg hop)

/-- Settles O8: the trailer coils by the tear-down, the trailer positions by `core_detachOne_same`. -/
theorem trailerFallDetaches : Obligations.TrailerFallDetaches := by
  intro dt s h hop
  have hexec := exec_trailerPresentFall dt h hop
  have hsame : ((s.trlFallen dt).tearDown (fun c => axleTrailer s.layout (coilAxle c))).layout = s.layout ∧
      (∀ p, ((s.trlFallen dt).tearDown (fun c => axleTrailer s.layout (coilAxle c))).posAt p = s.posAt p) ∧
      hostSideSame { s with pins := { s.pins with trl := false } }
        ((s.trlFallen dt).tearDown (fun c => axleTrailer s.layout (coilAxle c))) ∧
      ((s.trlFallen dt).tearDown (fun c => axleTrailer s.layout (coilAxle c))).control.refTrl = false ∧
      ((s.trlFallen dt).tearDown (fun c => axleTrailer s.layout (coilAxle c))).trigger = { s.trigger with
        records := s.trigger.records.filter (fun r => !(axleTrailer s.layout (coilAxle r.coil)))
        queue := s.trigger.queue.filter (fun r => !(axleTrailer s.layout (coilAxle r.coil))) } :=
    ⟨rfl, fun _ => rfl, ⟨rfl, rfl, rfl, rfl, rfl, rfl, rfl, rfl, rfl, rfl, rfl⟩, rfl, rfl⟩
  generalize (s.trlFallen dt).tearDown (fun c => axleTrailer s.layout (coilAxle c)) = u at hexec hsame
  obtain ⟨hlayout, hpos, hhost, href, htrigger⟩ := hsame
  have hbase := detachTrailer_base u
  have hhost' := hostSideSame_of_base hbase
  have htrig := (detachTrailer_trigger u).trans htrigger
  have hat := detachTrailer_at u
  rw [hlayout] at hat
  simp only [hpos] at hat
  have href' : u.detachTrailer.control.refTrl = false := (congrArg Base.refTrl hbase).trans href
  generalize u.detachTrailer = t at hexec hbase hhost' htrig hat href'
  obtain ⟨m1, m2, m3, m4, m5, m6, m7, m8, m9, m10, m11⟩ := hhost
  obtain ⟨n1, n2, n3, n4, n5, n6, n7, n8, n9, n10, n11⟩ := hhost'
  refine ⟨t, hexec, href', (congrArg Pins.trl (n2.trans m2) :), fun p => ?position, (congrArg Trigger.queue htrig :),
    fun r hr => ?records, (congrArg Trigger.coils htrig :), n1.trans m1, n2.trans m2, n3.trans m3, n4.trans m4, n5.trans m5,
    n6.trans m6, n7.trans m7, n8.trans m8, n9.trans m9, n10.trans m10, n11.trans m11⟩
  case records =>
    rw [htrig] at hr
    simpa using (List.mem_filter.mp hr).2
  case position =>
    obtain ⟨hout, hin⟩ := hat p
    by_cases htrailer : trailerPos s.layout p = true
    · obtain ⟨u, hu, hfold⟩ := hin htrailer
      obtain ⟨hst, hid, hepoch, hsample, hgone⟩ := detached_of_kept hu hfold
      rw [if_pos htrailer]
      refine ⟨hid, hepoch, hsample, hst, fun hd => hgone ?_⟩
      rw [State.detaches, htrailer, Bool.true_and] at hd
      rw [onTrailer_eq]
      exact hd
    · have hkept := hout (by simpa using htrailer)
      rw [if_neg htrailer]
      refine ⟨PosRec.keptBut_id hkept, PosRec.keptBut_epoch hkept, PosRec.keptBut_sample hkept, PosRec.keptBut_state hkept,
        fun hd => absurd (Bool.and_eq_true_iff.mp hd).1 htrailer⟩

end Sys2Proof.Machine
end

section
/-! The classification of a fire record (O21 to O23): its two ends (R71, R80). The record whose CLOSING period ends is judged; then
the claims that name an ID of the coil's positions are settled, the recheck flags of the coil's positions go, and the record is
freed. -/

namespace Sys2Proof.Machine
open Sys2Proof.Claim

/-! ### The command (R70, R71) -/

theorem find_of_unique {α : Type} {l : List α} {f : α → Bool} {a : α} (hmem : a ∈ l) (hf : f a = true)
    (hone : ∀ b ∈ l, f b = true → b = a) : l.find? f = some a := by
  cases h : l.find? f with
  | none => exact absurd hf (List.find?_eq_none.mp h a hmem)
  | some b => rw [hone b (List.mem_of_find?_eq_some h) (List.find?_some h)]

/-- R70: a coil has one record at most, so that the record whose CLOSING period ends is the one that is judged. -/
theorem exec_classification {s : State} {dt : Nat} {r : FireRec} (h : closesBy s dt r) :
    exec (.classification dt r.coil) s = .next ((s.elapse dt).classify r) := by
  obtain ⟨hok, hmem, hclosing, hends⟩ := h
  have hfind : (s.elapse dt).trigger.records.find? (fun x => x.coil == r.coil && x.closing &&
      decide (x.closingEnds ≤ (s.elapse dt).now)) = some r := by
    obtain ⟨-, hcoils, -⟩ := hok
    refine find_of_unique hmem ?_ fun b hb hthis => ?_
    · have hdue : r.closingEnds ≤ s.now + dt := hends
      simp [hclosing, hdue]
    · simp only [Bool.and_eq_true, beq_iff_eq] at hthis
      exact List.inj_on_of_nodup_map hcoils hb hmem hthis.1.1
  change execClassification dt r.coil s = _
  unfold execClassification
  dsimp only
  rw [hfind]

/-! ### The claims of a completed classification (R80) -/

/-- A sweep that leaves the records of the other positions. -/
theorem posAt_foldl_others {f : State → Pos → State} (hf : ∀ (s : State) (p q : Pos), q ≠ p → (f s p).posAt q = s.posAt q)
    (l : List Pos) (hl : l.Nodup) (s : State) (p : Pos) : (p ∉ l → (l.foldl f s).posAt p = s.posAt p) ∧
      (p ∈ l → ∃ u : State, u.posAt p = s.posAt p ∧ (l.foldl f s).posAt p = (f u p).posAt p) :=
  posAt_foldl_rel (R := fun r u => u = r) (fun _ => rfl) (fun h h' => h'.trans h) (fun s q h => hf s q p h) l hl s

theorem posAt_withdrawAll_other (s : State) {p q : Pos} (h : q ≠ p) : (s.withdrawAll p).posAt q = s.posAt q := by
  have hlist (l : List AlertKind) (u : State) : (l.foldl (fun t k => t.withdraw p k) u).posAt q = u.posAt q := by
    induction l generalizing u with
    | nil => rfl
    | cons k l ih => rw [List.foldl_cons, ih, posAt_withdraw, if_neg h]
  unfold State.withdrawAll
  rw [posAt_modPos_other _ _ _ _ h, hlist]

theorem posAt_enter_other (s : State) {p q : Pos} (b : BindState) (h : q ≠ p) : (s.enter p b).posAt q = s.posAt q := by
  unfold State.enter
  dsimp only
  rw [posAt_modPos_other _ _ _ _ h]
  split
  · rfl
  · exact posAt_withdrawAll_other s h

theorem enter_unevaluated (s : State) (p : Pos) {b : BindState} (h : b.evaluated = false) :
    s.enter p b = (s.withdrawAll p).modPos p (fun r => { r with state := b }) := by
  unfold State.enter
  rw [h]
  rfl

/-- R9: a position that enters CONFLICT has no alert. -/
theorem clear_enter_conflict (s : State) (p : Pos) (k : AlertKind) : ((s.enter p .conflict).alertAt p k).state = .clear := by
  have hall : ((s.withdrawAll p).alertAt p k).state = .clear := by
    rw [alertAt_withdrawAll, if_pos rfl]
    rfl
  rw [enter_unevaluated s p (b := .conflict) rfl]
  generalize s.withdrawAll p = u at hall ⊢
  rw [alertAt_modPos_same (s := u) (f := fun r => { r with state := .conflict }) rfl p k]
  exact hall

section
variable {w : List SensorId} {tag : Byte}

/-- R80: a claim that names no ID of the coil's positions stays. -/
theorem settleClaim_stays {s : State} {p : Pos} (h : ∀ x ∈ w, (s.posAt p).claim ≠ some x) : s.settleClaim w tag p = s := by
  unfold State.settleClaim
  split
  · rfl
  · next x hx =>
    refine if_neg fun hw => h x ?_ hx
    simpa using hw

theorem settleClaim_settles {s : State} {p : Pos} {x : SensorId} (hc : (s.posAt p).claim = some x) (hx : x ∈ w) :
    s.settleClaim w tag p = ((s.enter p .conflict).modPos p (fun r => { r with claim := none })).notify .conflict (some p) tag
      ((s.posAt p).id.getD 0) x := by
  rw [State.settleClaim, hc]
  exact if_pos (by simpa using hx)

theorem posAt_settleClaim_other (s : State) (p q : Pos) (h : q ≠ p) :
    (s.settleClaim w tag p).posAt q = s.posAt q := by
  unfold State.settleClaim
  split
  · rfl
  · split
    · rw [posAt_notify, posAt_modPos_other _ _ _ _ h, posAt_enter_other s _ h]
    · rfl

/-- R80: the record of a position whose claim names an ID of the coil's positions. -/
theorem core_settleClaim_same {s : State} {p : Pos} {x : SensorId} (hc : (s.posAt p).claim = some x) (hx : x ∈ w) :
    ((s.settleClaim w tag p).posAt p).core = { (s.posAt p).core with state := .conflict, claim := none } ∧
      ∀ k, ((s.settleClaim w tag p).alertAt p k).state = .clear := by
  have hcore := core_enter s p p .conflict
  have hclear := clear_enter_conflict s p
  rw [if_pos rfl] at hcore
  rw [settleClaim_settles hc hx]
  generalize s.enter p .conflict = u at hcore hclear ⊢
  refine ⟨?_, fun k => ?_⟩
  · rw [posAt_notify, posAt_modPos_same]
    change ({ (u.posAt p).core with claim := none } : PosRec) = _
    rw [hcore]
  · unfold State.alertAt at hclear ⊢
    rw [posAt_notify, posAt_modPos_same]
    exact hclear k

theorem settleClaim_aside (s : State) (p : Pos) : (s.settleClaim w tag p).aside = s.aside := by
  unfold State.settleClaim
  split
  · rfl
  · split
    · rw [notify_aside, modPos_aside, enter_aside]
    · rfl

/-! ### The end of a classification (R67, R80) -/

/-- R80: the claims, in index order. -/
def State.claimsSettled (s : State) (w : List SensorId) (tag : Byte) : State :=
  positionsInOrder.foldl (State.settleClaim w tag) s

/-- R67, R80: the claims, the recheck flags and the record. -/
def State.closed (s : State) (c : Coil) (w : List SensorId) (tag : Byte) : State :=
  (s.complete c w tag).dropRecords (fun x => x.coil == c)

theorem claimsSettled_layout (s : State) : (s.claimsSettled w tag).layout = s.layout := by
  have hbase := foldl_view State.base (State.settleClaim w tag) (fun u p => settleClaim_base w tag u p) positionsInOrder s
  unfold State.claimsSettled
  generalize positionsInOrder.foldl (State.settleClaim w tag) s = t at hbase ⊢
  exact layout_of_base hbase

theorem claimsSettled_aside (s : State) : (s.claimsSettled w tag).aside = s.aside :=
  foldl_view State.aside (State.settleClaim w tag) (fun u p => settleClaim_aside u p) positionsInOrder s

theorem claimsSettled_at (s : State) (p : Pos) : ∃ u : State, u.posAt p = s.posAt p ∧
    (s.claimsSettled w tag).posAt p = (u.settleClaim w tag p).posAt p := by
  have hmem : p ∈ positionsInOrder := List.mem_finRange p
  exact (posAt_foldl_others (f := State.settleClaim w tag) (fun s p q h => posAt_settleClaim_other s p q h)
    positionsInOrder (List.nodup_finRange 26) s p).2 hmem

theorem complete_eq (s : State) (c : Coil) : s.complete c w tag = (s.claimsSettled w tag).mapPos (fun p r =>
    if (servedBy (s.claimsSettled w tag).layout c).contains p then { r with recheck := false } else r) := rfl

theorem posAt_dropRecords (s : State) (gone : FireRec → Bool) (p : Pos) : (s.dropRecords gone).posAt p = s.posAt p := rfl

theorem posAt_closed (s : State) (c : Coil) (p : Pos) : (s.closed c w tag).posAt p =
    { (s.claimsSettled w tag).posAt p with
      recheck := if (servedBy s.layout c).contains p then false else ((s.claimsSettled w tag).posAt p).recheck } := by
  have hlayout := claimsSettled_layout (w := w) (tag := tag) s
  unfold State.closed
  rw [posAt_dropRecords, complete_eq]
  generalize s.claimsSettled w tag = u at hlayout ⊢
  rw [posAt_mapPos, hlayout]
  split <;> rfl

/-- A position whose claim names no ID of the coil's positions keeps its record but for the recheck flag. -/
theorem closed_stays {s : State} {c : Coil} {p : Pos} (h : ∀ x ∈ w, (s.posAt p).claim ≠ some x) :
    (s.closed c w tag).posAt p = { s.posAt p with
      recheck := if (servedBy s.layout c).contains p then false else (s.posAt p).recheck } := by
  obtain ⟨u, hu, hfold⟩ := claimsSettled_at (w := w) (tag := tag) s p
  rw [settleClaim_stays (by rw [hu]; exact h), hu] at hfold
  rw [posAt_closed, hfold]

/-- A position whose claim names an ID of the coil's positions becomes CONFLICT. -/
theorem closed_settles {s : State} {c : Coil} {p : Pos} {x : SensorId} (hc : (s.posAt p).claim = some x) (hx : x ∈ w) :
    claimSettled s (s.closed c w tag) p := by
  obtain ⟨u, hu, hfold⟩ := claimsSettled_at (w := w) (tag := tag) s p
  obtain ⟨hcore, hclear⟩ := core_settleClaim_same (tag := tag) (s := u) (p := p) (by rw [hu]; exact hc) hx
  have hpos := posAt_closed (w := w) (tag := tag) s c p
  rw [← hfold, hu] at hcore
  unfold State.alertAt at hclear
  rw [← hfold] at hclear
  generalize (s.claimsSettled w tag).posAt p = x at hcore hclear hpos
  unfold claimSettled State.alertAt
  rw [hpos]
  exact ⟨(congrArg PosRec.state hcore :), (congrArg PosRec.claim hcore :), (congrArg PosRec.id hcore :),
    (congrArg PosRec.epoch hcore :), hclear⟩

theorem closed_recheck (s : State) {c : Coil} {p : Pos} (h : p ∈ servedBy s.layout c) :
    ((s.closed c w tag).posAt p).recheck = false := by
  rw [posAt_closed]
  exact if_pos (by simpa using h)

theorem complete_aside (s : State) (c : Coil) : (s.complete c w tag).aside = s.aside := by
  rw [complete_eq, mapPos_aside, claimsSettled_aside]

theorem closed_trigger (s : State) (c : Coil) : (s.closed c w tag).trigger =
    { s.trigger with records := s.trigger.records.filter (fun x => x.coil != c) } := by
  have htrigger := trigger_of_aside (complete_aside (w := w) (tag := tag) s c)
  unfold State.closed
  generalize s.complete c w tag = u at htrigger ⊢
  unfold State.dropRecords
  dsimp only
  rw [htrigger]
  rfl

theorem dropRecords_listed (s : State) (gone : FireRec → Bool) : (s.dropRecords gone).listed = s.listed := by
  unfold State.listed State.dropRecords
  dsimp only
  rw [List.map_map]
  refine List.map_congr_left fun e _ => ?_
  dsimp only [Function.comp_apply]
  split <;> rfl

/-- R66: the drop of the record changes no ID of a candidate. -/
theorem closed_listed (s : State) (c : Coil) : (s.closed c w tag).listed = s.listed := by
  have hcand := candidates_of_aside (complete_aside (w := w) (tag := tag) s c)
  unfold State.closed
  rw [dropRecords_listed]
  unfold State.listed
  rw [hcand]

/-- With no claim that names an ID of the coil's positions nothing is told. -/
theorem complete_quiet {s : State} (c : Coil) (h : ∀ p, ∀ x ∈ w, (s.posAt p).claim ≠ some x) :
    s.complete c w tag = s.mapPos (fun p r => if (servedBy s.layout c).contains p then { r with recheck := false } else r) := by
  have hfold (l : List Pos) : l.foldl (State.settleClaim w tag) s = s := by
    induction l with
    | nil => rfl
    | cons p l ih => rw [List.foldl_cons, settleClaim_stays (h p), ih]
  have hsettled : s.claimsSettled w tag = s := hfold positionsInOrder
  rw [complete_eq, hsettled]

end

/-! ### The judged record (R71, R72) -/

theorem classify_retry {s : State} {r : FireRec} (hnone : fullAssignment s.layout (s.setting .twinMargin) r = none)
    (h : r.attempts < s.setting .retryLimit) : s.classify r =
      (s.offer { coil := r.coil, purpose := r.purpose, attempts := r.attempts, tag := r.tag }).dropRecords
        (fun x => x.coil == r.coil) := by
  unfold State.classify State.judgeRecord
  rw [hnone]
  dsimp only
  rw [if_pos h]

theorem classify_final {s : State} {r : FireRec} (hnone : fullAssignment s.layout (s.setting .twinMargin) r = none)
    (h : s.setting .retryLimit ≤ r.attempts) : s.classify r = (s.finalOutcome r).closed r.coil (s.heldBy r.coil) r.tag := by
  unfold State.classify State.judgeRecord
  rw [hnone]
  dsimp only
  rw [if_neg (Nat.not_lt.mpr h)]
  rfl

theorem classify_full {s : State} {r : FireRec} {full : List (Pos × SensorId)}
    (h : fullAssignment s.layout (s.setting .twinMargin) r = some full)
    (hall : ∀ a ∈ full, a.1 ∈ assignedSlots s.layout r) :
    s.classify r = (State.settleSlots r.coil r.tag full full s).closed r.coil (s.heldBy r.coil) r.tag := by
  have hfilter : full.filter (fun a => (assignedSlots s.layout r).contains a.1) = full :=
    List.filter_eq_self.mpr fun a ha => by simpa using hall a ha
  unfold State.classify State.judgeRecord
  rw [h]
  dsimp only
  rw [hfilter]
  rfl

end Sys2Proof.Machine
end

section
/-! A classification that retries or fails (O21): the outcomes of the assigned slots of a final classification without a full
assignment (R71, R72, R73, R80). -/

namespace Sys2Proof.Machine
open Sys2Proof.Claim

/-! ### Beside a slot that fails (R8) -/

/-- A record that is the same but, at most, for its MISMATCH record. -/
def PosRec.sameButMismatch (r u : PosRec) : Prop :=
  u = { r with alerts := u.alerts } ∧ ∀ k, k ≠ .mismatch → u.alerts.get k = r.alerts.get k

theorem PosRec.sameButMismatch_refl (r : PosRec) : r.sameButMismatch r := ⟨rfl, fun _ _ => rfl⟩

theorem PosRec.sameButMismatch_trans {r u v : PosRec} (h : r.sameButMismatch u) (h' : u.sameButMismatch v) :
    r.sameButMismatch v := by
  obtain ⟨hu, hku⟩ := h
  obtain ⟨hv, hkv⟩ := h'
  refine ⟨?_, fun k hk => (hkv k hk).trans (hku k hk)⟩
  rw [hu] at hv
  exact hv

theorem PosRec.sameButMismatch_withState {r u : PosRec} (h : r.sameButMismatch u) (b : BindState) :
    PosRec.sameButMismatch { r with state := b } { u with state := b } := by
  obtain ⟨hu, hk⟩ := h
  refine ⟨?_, hk⟩
  rw [hu]

/-- R8: an ID given up in a classification can end the MISMATCH of the pair's outer position; nothing else changes besides. -/
theorem posAt_giveUp_other (s : State) {p q : Pos} (b : BindState) (h : q ≠ p) :
    (s.giveUp p b .classification).posAt q = if pairOuter s.layout p = some q
      then { s.posAt q with alerts := (s.posAt q).alerts.set .mismatch (s.alertAt q .mismatch).cleared } else s.posAt q := by
  have hall := posAt_withdrawAll_other s h
  have hlayout : (s.withdrawAll p).layout = s.layout := layout_of_base (withdrawAll_base s p)
  unfold State.giveUp
  dsimp only
  rw [posAt_modPos_other _ _ _ _ h, posAt_clearRecheck, if_neg h, claimAfter_classification]
  change ((s.withdrawAll p).withdrawPair p).posAt q = _
  unfold State.alertAt
  generalize s.withdrawAll p = u at hall hlayout ⊢
  unfold State.withdrawPair
  rw [hlayout, ← hall]
  split
  · next o ho =>
    rw [posAt_withdraw]
    by_cases hq : q = o
    · rw [if_pos hq, if_pos (by rw [ho, hq]), hq]
      rfl
    · rw [if_neg hq, if_neg (by rw [ho]; exact fun h => hq (Option.some.inj h).symm)]
  · next ho =>
    rw [if_neg (by rw [ho]; exact fun h => nomatch h)]

theorem sameButMismatch_giveUp (s : State) {p q : Pos} (b : BindState) (h : q ≠ p) :
    (s.posAt q).sameButMismatch ((s.giveUp p b .classification).posAt q) := by
  rw [posAt_giveUp_other s b h]
  split
  · exact ⟨rfl, fun k hk => Alerts.get_set_other _ _ _ _ hk⟩
  · exact PosRec.sameButMismatch_refl _

/-! ### Confirmation and failure (R73, R74) -/

/-- R74, R96: the position is BOUND without a claim, and its deadline is armed where R96 arms it. -/
def State.confirming (s : State) (p : Pos) : State :=
  if (s.posAt p).armsOnConfirm then (s.modPos p (fun r => { r with state := .bound, claim := none })).arm p s.now
  else s.modPos p (fun r => { r with state := .bound, claim := none })

theorem posAt_confirming (s : State) (p q : Pos) : (s.confirming p).posAt q = if q = p then { s.posAt p with
    state := .bound, claim := none
    deadline := if (s.posAt p).armsOnConfirm then (if s.control.op = .run then some s.now else none)
      else (s.posAt p).deadline } else s.posAt q := by
  unfold State.confirming
  by_cases hq : q = p
  · subst hq
    rw [if_pos rfl]
    by_cases ha : (s.posAt q).armsOnConfirm = true
    · rw [if_pos ha, if_pos ha, State.arm, posAt_modPos_same, posAt_modPos_same]
      rfl
    · rw [if_neg ha, if_neg ha, posAt_modPos_same]
  · rw [if_neg hq]
    split
    · exact (posAt_modPos_other _ _ _ _ hq).trans (posAt_modPos_other _ _ _ _ hq)
    · exact posAt_modPos_other _ _ _ _ hq

theorem confirm_tail (s : State) (p : Pos) (tag : Byte) : s.confirm p tag = if (s.posAt p).state = .detached
    then ((s.confirming p).settleSilent p (s.posAt p).state).notify .trailerAttached (some p) tag ((s.posAt p).id.getD 0) 0
    else (s.confirming p).settleSilent p (s.posAt p).state := rfl

theorem posAt_confirm (s : State) (p q : Pos) (tag : Byte) :
    (s.confirm p tag).posAt q = ((s.confirming p).settleSilent p (s.posAt p).state).posAt q := by
  rw [confirm_tail]
  split
  · exact posAt_notify ..
  · rfl

theorem posAt_confirm_other (s : State) {p q : Pos} (tag : Byte) (h : q ≠ p) : (s.confirm p tag).posAt q = s.posAt q := by
  rw [posAt_confirm, posAt_settleSilent_other _ _ h, posAt_confirming, if_neg h]

/-- R74, R96: the record of a confirmed position. -/
theorem core_confirm (s : State) (p : Pos) (tag : Byte) : ((s.confirm p tag).posAt p).core = { (s.posAt p).core with
    state := .bound, claim := none
    deadline := if (s.posAt p).armsOnConfirm then (if s.control.op = .run then some s.now else none)
      else (s.posAt p).deadline } := by
  rw [posAt_confirm, core_of_tables (settleSilent_tables _ p _), posAt_confirming, if_pos rfl]
  rfl

/-- R74, R97: a confirmed SUSPECT position is no longer SILENT. -/
theorem silent_confirm {s : State} {p : Pos} (tag : Byte) (h : (s.posAt p).state = .suspect) :
    ((s.confirm p tag).posAt p).silent = false := by
  rw [posAt_confirm, State.settleSilent, if_pos h, posAt_endSilent_same]

theorem confirm_aside (s : State) (p : Pos) (tag : Byte) : (s.confirm p tag).aside = s.aside := by
  have hconfirming : (s.confirming p).aside = s.aside := by
    unfold State.confirming
    split <;> rfl
  rw [confirm_tail]
  split
  · rw [notify_aside, settleSilent_aside, hconfirming]
  · rw [settleSilent_aside, hconfirming]

section
variable {s : State} {p : Pos} {tag : Byte}

theorem failSlot_locating (h : (s.posAt p).state = .locating) : (s.failSlot p tag).posAt p =
    { s.posAt p with state := .unlearned } := by
  unfold State.failSlot
  rw [h]
  dsimp only
  rw [posAt_notify, posAt_modPos_same]

theorem failSlot_detached (h : (s.posAt p).state = .detached) :
    (s.failSlot p tag).posAt p = (s.giveUp p .unlearned .classification).posAt p := by
  unfold State.failSlot
  rw [h]
  dsimp only
  rw [posAt_notify]

theorem posAt_failSlot_stays (hl : (s.posAt p).state ≠ .locating) (hd : (s.posAt p).state ≠ .detached) (q : Pos) :
    (s.failSlot p tag).posAt q = s.posAt q := by
  unfold State.failSlot
  cases hst : (s.posAt p).state with
  | locating => exact absurd hst hl
  | detached => exact absurd hst hd
  | unlearned => rfl
  | vacant => rfl
  | bound => exact posAt_notify ..
  | suspect => exact posAt_notify ..
  | conflict => exact posAt_notify ..

end

theorem posAt_failSlot_other (s : State) {p q : Pos} (tag : Byte) (h : q ≠ p) : (s.failSlot p tag).posAt q =
    if (s.posAt p).state = .detached ∧ pairOuter s.layout p = some q
      then { s.posAt q with alerts := (s.posAt q).alerts.set .mismatch (s.alertAt q .mismatch).cleared } else s.posAt q := by
  by_cases hl : (s.posAt p).state = .locating
  · unfold State.failSlot
    rw [hl, if_neg fun h => nomatch h.1]
    dsimp only
    rw [posAt_notify, posAt_modPos_other _ _ _ _ h]
  · by_cases hd : (s.posAt p).state = .detached
    · unfold State.failSlot
      rw [hd]
      dsimp only
      rw [posAt_notify, posAt_giveUp_other s _ h]
      simp
    · rw [posAt_failSlot_stays hl hd q, if_neg fun h => hd h.1]

theorem failSlot_aside (s : State) (p : Pos) (tag : Byte) : (s.failSlot p tag).aside = s.aside := by
  unfold State.failSlot
  dsimp only
  split
  · rw [notify_aside, modPos_aside]
  · rfl
  · rfl
  · rw [notify_aside, giveUp_aside]
  all_goals exact notify_aside ..

/-! ### The assigned slots of a final classification (R73) -/

/-- R73: the outcome of one assigned slot. -/
def State.partialOutcome (keep : Option Pos) (tag : Byte) (s : State) (p : Pos) : State :=
  if keep = some p then s.confirm p tag else s.failSlot p tag

theorem finalOutcome_eq (s : State) (r : FireRec) : s.finalOutcome r =
    (assignedSlots s.layout r).foldl (State.partialOutcome (s.partialSlot r) r.tag) s := rfl

theorem sameButMismatch_partialOutcome (keep : Option Pos) (tag : Byte) (s : State) {p q : Pos} (h : p ≠ q) :
    (s.posAt p).sameButMismatch ((State.partialOutcome keep tag s q).posAt p) := by
  unfold State.partialOutcome
  split
  · rw [posAt_confirm_other s tag h]
    exact PosRec.sameButMismatch_refl _
  · rw [posAt_failSlot_other s tag h]
    split
    · exact ⟨rfl, fun k hk => Alerts.get_set_other _ _ _ _ hk⟩
    · exact PosRec.sameButMismatch_refl _

theorem partialOutcome_aside (keep : Option Pos) (tag : Byte) (s : State) (p : Pos) :
    (State.partialOutcome keep tag s p).aside = s.aside := by
  unfold State.partialOutcome
  split
  · exact confirm_aside ..
  · exact failSlot_aside ..

theorem partialOutcome_layout (keep : Option Pos) (tag : Byte) (s : State) (p : Pos) :
    (State.partialOutcome keep tag s p).layout = s.layout := by
  have hbase : (State.partialOutcome keep tag s p).base = s.base := by
    unfold State.partialOutcome
    split
    · exact confirm_base ..
    · exact failSlot_base ..
  exact layout_of_base hbase

theorem posAt_partialOutcome_other {keep : Option Pos} {tag : Byte} {c : Coil} {s : State} {p q : Pos} (hpq : p ≠ q)
    (hside : sideCoil q = some c) (h : p ≠ outerPos c ∨ (s.posAt q).state ≠ .detached) :
    (State.partialOutcome keep tag s q).posAt p = s.posAt p := by
  unfold State.partialOutcome
  split
  · exact posAt_confirm_other s tag hpq
  · rw [posAt_failSlot_other s tag hpq, if_neg]
    rintro ⟨hd, hpair⟩
    rw [pairOuter, hside] at hpair
    dsimp only at hpair
    split at hpair
    · exact h.elim (fun h => h (Option.some.inj hpair).symm) fun h => h hd
    · cases hpair

/-- R8: a position keeps its whole record beside the other slots when it is no outer position of the coil, or when none of them
is DETACHED. -/
theorem foldl_partialOutcome_exact {keep : Option Pos} {tag : Byte} {c : Coil} {p : Pos} (l : List Pos) (hl : l.Nodup)
    (s : State) (hside : ∀ q ∈ l, sideCoil q = some c)
    (h : p ≠ outerPos c ∨ ∀ q ∈ l, q ≠ p → (s.posAt q).state ≠ .detached) :
    (p ∉ l → (l.foldl (State.partialOutcome keep tag) s).posAt p = s.posAt p) ∧
    (p ∈ l → ∃ u : State, u.posAt p = s.posAt p ∧
      (l.foldl (State.partialOutcome keep tag) s).posAt p = (State.partialOutcome keep tag u p).posAt p) := by
  induction l generalizing s with
  | nil => exact ⟨fun _ => rfl, fun h => absurd h List.not_mem_nil⟩
  | cons q l ih =>
    obtain ⟨hq, hl⟩ := List.nodup_cons.mp hl
    have hnext : p ≠ outerPos c ∨ ∀ x ∈ l, x ≠ p → ((State.partialOutcome keep tag s q).posAt x).state ≠ .detached := by
      refine h.imp id fun h x hx hxp => ?_
      have hxq : x ≠ q := fun e => hq (e ▸ hx)
      have hsame := (sameButMismatch_partialOutcome keep tag s hxq).1
      rw [(congrArg PosRec.state hsame :)]
      exact h x (List.mem_cons_of_mem q hx) hxp
    obtain ⟨hout, hin⟩ := ih hl (State.partialOutcome keep tag s q) (fun x hx => hside x (List.mem_cons_of_mem q hx)) hnext
    have hstep (hpq : p ≠ q) : (State.partialOutcome keep tag s q).posAt p = s.posAt p :=
      posAt_partialOutcome_other hpq (hside q List.mem_cons_self)
        (h.imp id fun h => h q List.mem_cons_self (Ne.symm hpq))
    refine ⟨fun hp => ?_, fun hp => ?_⟩
    · rw [List.mem_cons, not_or] at hp
      exact (hout hp.2).trans (hstep hp.1)
    · by_cases hpq : p = q
      · subst hpq
        exact ⟨s, rfl, hout hq⟩
      · obtain ⟨u, hu, hfold⟩ := hin ((List.mem_cons.mp hp).resolve_left hpq)
        exact ⟨u, hu.trans (hstep hpq), hfold⟩

theorem assignedSlots_nodup (layout : Word) (r : FireRec) : (assignedSlots layout r).Nodup := (servedBy_nodup _ _).filter _

theorem sideCoil_of_served : ∀ c : Coil, sideCoil (innerPos c) = some c ∧ sideCoil (outerPos c) = some c := by decide

/-- R59: a coil serves positions of its own side. -/
theorem sideCoil_of_servedBy {layout : Word} {c : Coil} {p : Pos} (h : p ∈ servedBy layout c) : sideCoil p = some c := by
  obtain ⟨hinner, houter⟩ := sideCoil_of_served c
  unfold servedBy at h
  split at h
  · cases h
  · rw [List.mem_singleton.mp h]
    exact houter
  · obtain h | h := List.mem_cons.mp h
    · rw [h]
      exact hinner
    · rw [List.mem_singleton.mp h]
      exact houter

/-- R59: a coil that serves a position serves its outer one. -/
theorem outerPos_served {layout : Word} {c : Coil} {q : Pos} (h : q ∈ servedBy layout c) : outerPos c ∈ servedBy layout c := by
  unfold servedBy at h ⊢
  split at h
  · cases h
  · exact List.mem_singleton.mpr rfl
  · exact List.mem_cons_of_mem _ (List.mem_singleton.mpr rfl)

/-- R73: a partial answer confirms the slot that holds the only responder. -/
theorem partialSlot_iff {s : State} (hok : bindingsOk s) (r : FireRec) (p : Pos) :
    s.partialSlot r = some p ↔ answersAlone s r p := by
  unfold State.partialSlot answersAlone
  constructor
  · intro h
    split at h
    · next x hkind hresp =>
      have hid := List.find?_some h
      exact ⟨hkind, List.mem_of_find?_eq_some h, by rw [hresp]; rfl, x, by rw [hresp]; exact List.mem_singleton.mpr rfl,
        by simpa using hid⟩
    · cases h
  · rintro ⟨hkind, hmem, hlen, x, hx, hid⟩
    obtain ⟨y, hy⟩ := List.length_eq_one_iff.mp hlen
    rw [hy, List.mem_singleton] at hx
    subst hx
    rw [hkind, hy]
    refine find_of_unique hmem (by simpa using hid) fun q _ hq => ?_
    have hq' : (s.posAt q).id = some x.id := by simpa using hq
    obtain ⟨-, -, -, hunique⟩ := hok q
    exact hunique p (by rw [hq']; rfl) (hq'.trans hid.symm)

theorem core_of_sameButMismatch {r u : PosRec} (h : r.sameButMismatch u) : u.core = r.core := by
  rw [h.1]
  rfl

section
variable {s : State} {r : FireRec} {p : Pos}

/-- A position of the coil, before and after the outcome of its own slot. -/
theorem finalOutcome_at (h : p ∈ assignedSlots s.layout r) : ∃ v : State, (s.posAt p).sameButMismatch (v.posAt p) ∧
    ((State.partialOutcome (s.partialSlot r) r.tag v p).posAt p).sameButMismatch ((s.finalOutcome r).posAt p) :=
  (posAt_foldl_rel PosRec.sameButMismatch_refl PosRec.sameButMismatch_trans
    (fun s _ h => sameButMismatch_partialOutcome _ r.tag s h) _ (assignedSlots_nodup s.layout r) s).2 h

theorem finalOutcome_unassigned (h : p ∉ assignedSlots s.layout r) :
    (s.posAt p).sameButMismatch ((s.finalOutcome r).posAt p) :=
  (posAt_foldl_rel PosRec.sameButMismatch_refl PosRec.sameButMismatch_trans
    (fun s _ h => sameButMismatch_partialOutcome _ r.tag s h) _ (assignedSlots_nodup s.layout r) s).1 h

theorem finalOutcome_exact (h : p ≠ outerPos r.coil ∨ ∀ q ∈ assignedSlots s.layout r, q ≠ p →
      (s.posAt q).state ≠ .detached) :
    (p ∉ assignedSlots s.layout r → (s.finalOutcome r).posAt p = s.posAt p) ∧
    (p ∈ assignedSlots s.layout r → ∃ u : State, u.posAt p = s.posAt p ∧
      (s.finalOutcome r).posAt p = (State.partialOutcome (s.partialSlot r) r.tag u p).posAt p) :=
  foldl_partialOutcome_exact _ (assignedSlots_nodup s.layout r) s
    (fun _ hq => sideCoil_of_servedBy (List.mem_filter.mp hq).1) h

theorem finalOutcome_aside (s : State) (r : FireRec) : (s.finalOutcome r).aside = s.aside :=
  foldl_view State.aside (State.partialOutcome (s.partialSlot r) r.tag) (fun u p => partialOutcome_aside _ r.tag u p) _ s

/-- R74: the slot that holds the only responder is confirmed. -/
theorem finalOutcome_alone (hok : bindingsOk s) (h : answersAlone s r p) :
    ((s.finalOutcome r).posAt p).state = .bound ∧ ((s.finalOutcome r).posAt p).claim = none ∧
      ((s.finalOutcome r).posAt p).id = (s.posAt p).id ∧ ((s.finalOutcome r).posAt p).epoch = (s.posAt p).epoch ∧
      ((s.finalOutcome r).posAt p).sample = (s.posAt p).sample := by
  obtain ⟨v, hv, hu⟩ := finalOutcome_at h.2.1
  rw [State.partialOutcome, if_pos ((partialSlot_iff hok r p).mpr h)] at hu
  have hcore := (core_of_sameButMismatch hu).trans (core_confirm v p r.tag)
  have hbefore := core_of_sameButMismatch hv
  exact ⟨(congrArg PosRec.state hcore :), (congrArg PosRec.claim hcore :),
    (congrArg PosRec.id hcore :).trans (congrArg PosRec.id hbefore :),
    (congrArg PosRec.epoch hcore :).trans (congrArg PosRec.epoch hbefore :),
    (congrArg PosRec.sample hcore :).trans (congrArg PosRec.sample hbefore :)⟩

theorem partialOutcome_fails (hok : bindingsOk s) (h : ¬ answersAlone s r p) (v : State) :
    State.partialOutcome (s.partialSlot r) r.tag v p = v.failSlot p r.tag :=
  if_neg fun hkeep => h ((partialSlot_iff hok r p).mp hkeep)

/-- R73: a LOCATING slot becomes UNLEARNED. -/
theorem finalOutcome_locating (hok : bindingsOk s) (h : ¬ answersAlone s r p) (hp : p ∈ assignedSlots s.layout r)
    (hst : (s.posAt p).state = .locating) :
    PosRec.sameButMismatch { s.posAt p with state := .unlearned } ((s.finalOutcome r).posAt p) := by
  obtain ⟨v, hv, hu⟩ := finalOutcome_at hp
  have hvst : (v.posAt p).state = .locating := (congrArg PosRec.state hv.1 :).trans hst
  rw [partialOutcome_fails hok h, failSlot_locating hvst] at hu
  exact PosRec.sameButMismatch_trans (PosRec.sameButMismatch_withState hv .unlearned) hu

/-- R73: a DETACHED slot gives up its ID. -/
theorem finalOutcome_detached (hok : bindingsOk s) (h : ¬ answersAlone s r p) (hp : p ∈ assignedSlots s.layout r)
    (hst : (s.posAt p).state = .detached) : gaveUpId (s.posAt p) ((s.finalOutcome r).posAt p) := by
  obtain ⟨v, ⟨hv, -⟩, hu⟩ := finalOutcome_at hp
  have hvst : (v.posAt p).state = .detached := (congrArg PosRec.state hv :).trans hst
  have hepoch : (v.posAt p).epoch = (s.posAt p).epoch := (congrArg PosRec.epoch hv :)
  rw [partialOutcome_fails hok h, failSlot_detached hvst] at hu
  have hgave := gaveUpId_kept (gaveUpId_giveUp v p .classification)
    (PosRec.keptBut_of_core (core_of_sameButMismatch hu))
  unfold gaveUpId at hgave ⊢
  rw [hepoch] at hgave
  exact hgave

/-- R73: every other position keeps its binding. -/
theorem finalOutcome_rest (hok : bindingsOk s) (h : ¬ answersAlone s r p)
    (hp : p ∉ assignedSlots s.layout r ∨ ((s.posAt p).state ≠ .locating ∧ (s.posAt p).state ≠ .detached)) :
    (s.posAt p).sameButMismatch ((s.finalOutcome r).posAt p) := by
  by_cases hmem : p ∈ assignedSlots s.layout r
  · obtain ⟨hl, hd⟩ := hp.resolve_left (not_not_intro hmem)
    obtain ⟨v, hv, hu⟩ := finalOutcome_at hmem
    have hvst : (v.posAt p).state = (s.posAt p).state := (congrArg PosRec.state hv.1 :)
    rw [partialOutcome_fails hok h, posAt_failSlot_stays (by rw [hvst]; exact hl) (by rw [hvst]; exact hd)] at hu
    exact PosRec.sameButMismatch_trans hv hu
  · exact finalOutcome_unassigned hmem

end

/-! ### The obligation -/

/-- Settles O21: the offer of a retry, and `foldl_partialOutcome_exact` with `closed_stays` and `closed_settles`. -/
theorem classificationRetries : Obligations.ClassificationRetries := by
  refine ⟨fun dt r s hrun havail hcloses hnone hlow hfree => ?retry, fun dt r s hok hcloses hnone hhigh => ?final⟩
  case retry =>
    have hexec := exec_classification hcloses
    rw [classify_retry (s := s.elapse dt) hnone hlow] at hexec
    have hoffer : (s.elapse dt).offer { coil := r.coil, purpose := r.purpose, attempts := r.attempts, tag := r.tag } =
        { s.elapse dt with trigger := { s.trigger with queue := s.trigger.queue ++
          [{ coil := r.coil, purpose := r.purpose, attempts := r.attempts, tag := r.tag }] } } := by
      have hcan : (s.elapse dt).control.op = .run ∧ (s.elapse dt).available r.coil = true := ⟨hrun, havail⟩
      unfold State.offer
      dsimp only
      rw [if_pos hcan]
      exact congrArg (fun q => ({ s.elapse dt with trigger := { s.trigger with queue := q } } : State))
        (takeRequest_new hfree)
    rw [hoffer] at hexec
    exact ⟨_, hexec, rfl, rfl, rfl, rfl, rfl, rfl, rfl, rfl, rfl, rfl, rfl, rfl, rfl, rfl, rfl, rfl⟩
  case final =>
    have hexec := exec_classification hcloses
    rw [classify_final (s := s.elapse dt) hnone hhigh] at hexec
    have hhost : hostSideSame s ((s.elapse dt).classify r) := hostSideSame_of_base (s := s.elapse dt) (classify_base _ r)
    rw [classify_final (s := s.elapse dt) hnone hhigh] at hhost
    have hok' : bindingsOk (s.elapse dt) := hok
    have htrigger : ((s.elapse dt).finalOutcome r).trigger = s.trigger := trigger_of_aside (finalOutcome_aside (s.elapse dt) r)
    have hlayout : ((s.elapse dt).finalOutcome r).layout = s.layout :=
      layout_of_base (s := s.elapse dt) (finalOutcome_base (s.elapse dt) r)
    have hheld : (s.elapse dt).heldBy r.coil = s.heldBy r.coil := rfl
    have halone (p : Pos) := finalOutcome_alone (s := s.elapse dt) (r := r) (p := p) hok'
    have hlocating (p : Pos) := finalOutcome_locating (s := s.elapse dt) (r := r) (p := p) hok'
    have hdetached (p : Pos) := finalOutcome_detached (s := s.elapse dt) (r := r) (p := p) hok'
    have hrest (p : Pos) := finalOutcome_rest (s := s.elapse dt) (r := r) (p := p) hok'
    have hexact (p : Pos) := finalOutcome_exact (s := s.elapse dt) (r := r) (p := p)
    have hfails (p : Pos) (h : ¬ answersAlone s r p) (v : State) :=
      partialOutcome_fails (s := s.elapse dt) (r := r) (p := p) hok' h v
    rw [hheld] at hexec hhost
    generalize (s.elapse dt).finalOutcome r = u at *
    have hpos : ∀ p, (s.elapse dt).posAt p = s.posAt p := fun _ => rfl
    simp only [hpos] at hlocating hdetached hrest hexact
    have hserved (p : Pos) (hp : p ∈ assignedSlots s.layout r) : p ∈ servedBy s.layout r.coil := (List.mem_filter.mp hp).1
    have hstays (p : Pos) (hw : ∀ x ∈ s.heldBy r.coil, (u.posAt p).claim ≠ some x) :=
      closed_stays (tag := r.tag) (c := r.coil) hw
    have hsettles (p : Pos) (x : SensorId) (hc : (u.posAt p).claim = some x) (hx : x ∈ s.heldBy r.coil) :=
      closed_settles (tag := r.tag) (c := r.coil) hc hx
    have hrecheck (p : Pos) := closed_recheck (w := s.heldBy r.coil) (tag := r.tag) u (c := r.coil) (p := p)
    have htrig := closed_trigger (w := s.heldBy r.coil) (tag := r.tag) u r.coil
    rw [htrigger] at htrig
    rw [hlayout] at hstays hrecheck
    generalize u.closed r.coil (s.heldBy r.coil) r.tag = t at hexec hhost hstays hsettles hrecheck htrig
    refine ⟨t, hexec, (congrArg Trigger.records htrig :), (congrArg Trigger.queue htrig :), hhost, fun p =>
      ⟨fun h => ?alone, fun h hp hst => ?locating, fun h hp hst => ?detached, fun h hp => ⟨fun hw => ?keeps,
        fun hw => ?settles⟩, hrecheck p, fun hp hw => ?exact⟩⟩
    case alone =>
      obtain ⟨hst, hc, hid, hepoch, hsample⟩ := halone p h
      rw [hstays p fun x _ => by rw [hc]; exact fun h => nomatch h]
      exact ⟨hst, hc, hid, hepoch, hsample⟩
    case locating =>
      have hu := hlocating p h hp hst
      have hnone : (s.posAt p).claim = none := by
        obtain ⟨-, -, hclaim, -⟩ := hok p
        cases hc : (s.posAt p).claim with
        | none => rfl
        | some x =>
          have hholds := hclaim (by rw [hc]; rfl)
          rw [hst] at hholds
          cases hholds
      have hc : (u.posAt p).claim = none := (congrArg PosRec.claim hu.1 :).trans hnone
      have ht := hstays p fun x _ => by rw [hc]; exact fun h => nomatch h
      rw [if_pos (by simpa using hserved p hp)] at ht
      refine ⟨?_, fun k hk => ?_, fun hexactly => ?_⟩
      · rw [ht, hu.1]
      · unfold State.alertAt
        rw [ht]
        exact hu.2 k hk
      · rw [ht]
        obtain ⟨v, hv, huv⟩ := (hexact p (hexactly.imp id fun hno q hq _ => hno q hq)).2 hp
        rw [hfails p h v, failSlot_locating (by rw [hv]; exact hst), hv] at huv
        exact (congrArg PosRec.alerts huv :)
    case detached =>
      obtain ⟨hst', hid, hepoch, hempty, hint, hdead⟩ := hdetached p h hp hst
      obtain ⟨h1, h2, h3, h4, hc⟩ := id hempty
      rw [hstays p fun x _ => by rw [hc]; exact fun h => nomatch h]
      exact ⟨hst', hid, hepoch, ⟨h1, h2, h3, h4, hc⟩, hint, hdead⟩
    case keeps =>
      have hu := (hrest p h hp).1
      have hc : (u.posAt p).claim = (s.posAt p).claim := (congrArg PosRec.claim hu :)
      unfold keepsBinding
      rw [hstays p fun x hx hxc => hw ⟨x, hx, hc.symm.trans hxc⟩]
      exact ⟨⟨(congrArg PosRec.state hu :), (congrArg PosRec.id hu :), (congrArg PosRec.epoch hu :),
        (congrArg PosRec.sample hu :)⟩, hc⟩
    case settles =>
      obtain ⟨x, hx, hxc⟩ := hw
      have hu := (hrest p h hp).1
      obtain ⟨hst', hc, hid, hepoch, hclear⟩ := hsettles p x ((congrArg PosRec.claim hu :).trans hxc) hx
      exact ⟨hst', hc, hid.trans (congrArg PosRec.id hu :), hepoch.trans (congrArg PosRec.epoch hu :), hclear⟩
    case exact =>
      have houter : p ≠ outerPos r.coil ∨ ∀ q ∈ assignedSlots s.layout r, q ≠ p → (s.posAt q).state ≠ .detached := by
        by_cases hout : p = outerPos r.coil
        · exact .inr fun q hq _ => absurd (outerPos_served (hserved q hq)) (hout ▸ hp)
        · exact .inl hout
      have hu := (hexact p houter).1 fun hmem => hp (hserved p hmem)
      rw [hstays p fun x hx hxc => hw ⟨x, hx, by rw [← hu]; exact hxc⟩, hu, if_neg (by simpa using hp)]

end Sys2Proof.Machine
end

section
/-! A classification that binds sensors that no position holds (O22): the full assignments of the two kinds of axle (R71), and the
outcome bind-or-replace (R79). -/

namespace Sys2Proof.Machine
open Sys2Proof.Claim

/-! ### Full assignments (R71) -/

theorem heldBy_elapse (s : State) (dt : Nat) (c : Coil) : (s.elapse dt).heldBy c = s.heldBy c := rfl

/-- R59: the IDs held beside a SINGLE axle's coil. -/
theorem heldBy_single {s : State} {c : Coil} (h : axleKind s.layout (coilAxle c) = .single) :
    s.heldBy c = (s.posAt (outerPos c)).id.toList := by
  unfold State.heldBy servedBy
  rw [h]
  cases hid : (s.posAt (outerPos c)).id <;> simp [hid]

/-- R59: the IDs held beside a TWIN axle's coil. -/
theorem heldBy_twin {s : State} {c : Coil} (h : axleKind s.layout (coilAxle c) = .twin) :
    s.heldBy c = (s.posAt (innerPos c)).id.toList ++ (s.posAt (outerPos c)).id.toList := by
  unfold State.heldBy servedBy
  rw [h]
  cases hi : (s.posAt (innerPos c)).id <;> cases ho : (s.posAt (outerPos c)).id <;> simp [hi, ho]

section
variable {s : State} {dt : Nat} {r : FireRec} {x y : Response}

/-- R71: the one responder of a SINGLE axle goes to the outer slot. -/
theorem classification_single (h : singleAnswer s dt r x) :
    exec (.classification dt r.coil) s =
      .next (((s.elapse dt).slotOutcome r.coil (outerPos r.coil) x.id r.tag).closed r.coil (s.heldBy r.coil) r.tag) ∧
    hostSideSame s
      (((s.elapse dt).slotOutcome r.coil (outerPos r.coil) x.id r.tag).closed r.coil (s.heldBy r.coil) r.tag) := by
  obtain ⟨hcloses, hkind, hresp, hfull, hcare⟩ := h
  have hassign : fullAssignment s.layout (s.setting .twinMargin) r = some [(outerPos r.coil, x.id)] := by
    unfold fullAssignment
    rw [hfull, hkind, hresp]
    rfl
  have hslots : ∀ a ∈ [(outerPos r.coil, x.id)], a.1 ∈ assignedSlots s.layout r := by
    intro a ha
    rw [List.mem_singleton.mp ha]
    unfold assignedSlots servedBy
    rw [hkind, hcare]
    simp
  have hclass := classify_full (s := s.elapse dt) hassign hslots
  have hno : (s.elapse dt).exchangesWithin [(outerPos r.coil, x.id)] (outerPos r.coil) x.id = false := by
    unfold State.exchangesWithin
    split
    · rfl
    · simp
  have hsettle : State.settleSlots r.coil r.tag [(outerPos r.coil, x.id)] [(outerPos r.coil, x.id)] (s.elapse dt) =
      (s.elapse dt).slotOutcome r.coil (outerPos r.coil) x.id r.tag := by
    rw [State.settleSlots, hno]
    rfl
  rw [hsettle, heldBy_elapse] at hclass
  rw [← hclass]
  exact ⟨exec_classification hcloses, hostSideSame_of_base (s := s.elapse dt) (classify_base _ r)⟩

/-- R71: of the two responders of a TWIN axle the stronger one goes to the inner slot. -/
theorem classification_twin (h : twinAnswer s dt r x y) :
    exec (.classification dt r.coil) s =
      .next ((State.settleSlots r.coil r.tag [(innerPos r.coil, x.id), (outerPos r.coil, y.id)]
        [(innerPos r.coil, x.id), (outerPos r.coil, y.id)] (s.elapse dt)).closed r.coil (s.heldBy r.coil) r.tag) ∧
    hostSideSame s ((State.settleSlots r.coil r.tag [(innerPos r.coil, x.id), (outerPos r.coil, y.id)]
        [(innerPos r.coil, x.id), (outerPos r.coil, y.id)] (s.elapse dt)).closed r.coil (s.heldBy r.coil) r.tag) := by
  obtain ⟨hcloses, hkind, hresp, hfull, hcare, -, hlt, hmargin⟩ := h
  have hassign : fullAssignment s.layout (s.setting .twinMargin) r =
      some [(innerPos r.coil, x.id), (outerPos r.coil, y.id)] := by
    unfold fullAssignment
    rw [hfull, hkind]
    obtain hresp | hresp := hresp
    · rw [hresp]
      exact if_pos hmargin
    · have hnot : ¬ x.lf.toNat + s.setting .twinMargin ≤ y.lf.toNat := by omega
      rw [hresp]
      exact (if_neg hnot).trans (if_pos hmargin)
  have hslots : ∀ a ∈ [(innerPos r.coil, x.id), (outerPos r.coil, y.id)], a.1 ∈ assignedSlots s.layout r := by
    intro a ha
    unfold assignedSlots servedBy
    rw [hkind, hcare]
    obtain rfl | rfl := List.mem_pair.mp ha <;> simp
  have hclass := classify_full (s := s.elapse dt) hassign hslots
  rw [heldBy_elapse] at hclass
  rw [← hclass]
  exact ⟨exec_classification hcloses, hostSideSame_of_base (s := s.elapse dt) (classify_base _ r)⟩

end

/-! ### Bind or replace (R79) -/

section
variable {s : State} {p : Pos} {x : SensorId} {tag : Byte}

theorem posAt_bindOrReplace (s : State) (p q : Pos) (x : SensorId) (tag : Byte) :
    (s.bindOrReplace p x tag).posAt q = (s.takeId p x .classification).posAt q := by
  unfold State.bindOrReplace
  split <;> exact posAt_notify ..

theorem bindOrReplace_aside (s : State) (p : Pos) (x : SensorId) (tag : Byte) :
    (s.bindOrReplace p x tag).aside = (s.removeCandidate x).aside := by
  unfold State.bindOrReplace
  split <;> rw [notify_aside, takeId_aside]

theorem slotOutcome_unheld (c : Coil) (hx : s.holder x = none) : s.slotOutcome c p x tag = s.bindOrReplace p x tag := by
  unfold State.slotOutcome
  rw [if_neg (id_ne_of_holder_none hx p), hx]

end

/-- R54: a bound ID is no longer listed. -/
theorem not_listed_removeCandidate (s : State) (i : SensorId) : i ∉ (s.removeCandidate i).listed := by
  unfold State.listed State.removeCandidate
  rw [List.mem_map]
  rintro ⟨e, he, rfl⟩
  have hne := (List.mem_filter.mp he).2
  simp at hne

/-- R7: in a classification the records besides that of a taken ID change, at most, in their alerts. -/
theorem core_takeId_besides (s : State) {p q : Pos} (i : SensorId) (h : q ≠ p) :
    ((s.takeId p i .classification).posAt q).core = (s.posAt q).core := by
  rw [core_takeId_other s i .classification h, State.besides, claimAfter_classification]
  rfl

/-- The end of a classification whose claims name no ID of the coil's positions: a binding stays. -/
theorem keepsBinding_closed {s u : State} {c : Coil} {w : List SensorId} {tag : Byte} {p : Pos}
    (hcore : (u.posAt p).core = (s.posAt p).core) (hw : ∀ x ∈ w, (s.posAt p).claim ≠ some x) :
    keepsBinding s (u.closed c w tag) p ∧ ((u.closed c w tag).posAt p).claim = (s.posAt p).claim := by
  have hclaim : (u.posAt p).claim = (s.posAt p).claim := (congrArg PosRec.claim hcore :)
  unfold keepsBinding
  rw [closed_stays (by rw [hclaim]; exact hw)]
  exact ⟨⟨(congrArg PosRec.state hcore :), (congrArg PosRec.id hcore :), (congrArg PosRec.epoch hcore :),
    (congrArg PosRec.sample hcore :)⟩, hclaim⟩

theorem claimSettled_closed {s u : State} {c : Coil} {w : List SensorId} {tag : Byte} {p : Pos} {x : SensorId}
    (hcore : (u.posAt p).core = (s.posAt p).core) (hc : (s.posAt p).claim = some x) (hx : x ∈ w) :
    claimSettled s (u.closed c w tag) p := by
  have hclaim : (u.posAt p).claim = (s.posAt p).claim := (congrArg PosRec.claim hcore :)
  obtain ⟨hst, hnone, hid, hepoch, hclear⟩ := closed_settles (c := c) (tag := tag) (hclaim.trans hc) hx
  exact ⟨hst, hnone, hid.trans (congrArg PosRec.id hcore :), hepoch.trans (congrArg PosRec.epoch hcore :), hclear⟩

theorem tookId_closed {u : State} {c : Coil} {w : List SensorId} {tag : Byte} {p : Pos} {r : PosRec} {i : SensorId}
    (h : tookId r (u.posAt p) i) : tookId r ((u.closed c w tag).posAt p) i := by
  obtain ⟨hst, hid, hepoch, h1, h2, h3, h4, hc⟩ := h
  rw [closed_stays fun x _ => by rw [hc]; exact fun h => nomatch h]
  exact ⟨hst, hid, hepoch, h1, h2, h3, h4, hc⟩

theorem gaveUpId_closed {u : State} {c : Coil} {w : List SensorId} {tag : Byte} {p : Pos} {r : PosRec}
    (h : gaveUpId r (u.posAt p)) : gaveUpId r ((u.closed c w tag).posAt p) := by
  obtain ⟨hst, hid, hepoch, ⟨h1, h2, h3, h4, hc⟩, hi, hd⟩ := h
  rw [closed_stays fun x _ => by rw [hc]; exact fun h => nomatch h]
  exact ⟨hst, hid, hepoch, ⟨h1, h2, h3, h4, hc⟩, hi, hd⟩

/-- What the end of a classification leaves of the trigger unit. -/
theorem closed_records {s u : State} {c : Coil} {w : List SensorId} {tag : Byte} (h : u.trigger = s.trigger) :
    (u.closed c w tag).trigger.records = recordsWithout s c ∧ (u.closed c w tag).trigger.queue = s.trigger.queue := by
  rw [closed_trigger, h]
  exact ⟨rfl, rfl⟩

theorem closed_unlisted {u : State} {c : Coil} {w : List SensorId} {tag : Byte} {i : SensorId} (h : i ∉ u.listed) :
    ∀ e ∈ (u.closed c w tag).candidates, e.id ≠ i := by
  intro e he hi
  have hmem : e.id ∈ (u.closed c w tag).listed := List.mem_map_of_mem he
  rw [closed_listed, hi] at hmem
  exact h hmem

/-- Without a position that holds the ID there is no holder. -/
theorem holder_none {s : State} {i : SensorId} (h : ∀ p, (s.posAt p).id ≠ some i) : s.holder i = none :=
  List.find?_eq_none.mpr fun p _ hp => h p (by simpa using hp)

theorem exchangesWithin_empty {s : State} {p : Pos} (asg : List (Pos × SensorId)) (x : SensorId)
    (h : (s.posAt p).id = none) : s.exchangesWithin asg p x = false := by
  rw [State.exchangesWithin, h]

/-- R79: two unheld responders are bound one after the other at slots that hold no ID. -/
theorem settleSlots_unheld {s : State} {c : Coil} {x y : SensorId} {tag : Byte} (hxy : x ≠ y) (hx : s.holder x = none)
    (hy : s.holder y = none) (hin : (s.posAt (innerPos c)).id = none) (hout : (s.posAt (outerPos c)).id = none) :
    State.settleSlots c tag [(innerPos c, x), (outerPos c, y)] [(innerPos c, x), (outerPos c, y)] s =
      (s.bindOrReplace (innerPos c) x tag).bindOrReplace (outerPos c) y tag := by
  have hid (p : Pos) : ((s.bindOrReplace (innerPos c) x tag).posAt p).id = if p = innerPos c then some x
      else (s.posAt p).id := by
    rw [posAt_bindOrReplace]
    by_cases hp : p = innerPos c
    · rw [if_pos hp, hp]
      exact takeId_id ..
    · rw [if_neg hp]
      exact takeId_id_other s x .classification hp
  have hout' : ((s.bindOrReplace (innerPos c) x tag).posAt (outerPos c)).id = none := by
    rw [hid, if_neg (innerPos_ne_outerPos c).symm, hout]
  have hy' : (s.bindOrReplace (innerPos c) x tag).holder y = none := by
    refine holder_none fun p => ?_
    rw [hid]
    split
    · exact fun h => hxy (Option.some.inj h)
    · exact id_ne_of_holder_none hy p
  rw [State.settleSlots, exchangesWithin_empty _ _ hin, slotOutcome_unheld c hx]
  rw [if_neg Bool.false_ne_true, State.settleSlots, exchangesWithin_empty _ _ hout', slotOutcome_unheld c hy']
  rfl

/-- Settles O22: one taken ID (`classification_single`) or two (`classification_twin`), then the end of the classification. -/
theorem classificationBindsAnUnheldSensor : Obligations.ClassificationBindsAnUnheldSensor := by
  have hone (dt : Nat) (r : FireRec) (x : Response) (s : State) (h : singleAnswer s dt r x) (hx : s.holder x.id = none) :
      ∃ t, exec (.classification dt r.coil) s = .next t ∧ t.trigger.records = recordsWithout s r.coil ∧
        tookId (s.posAt (outerPos r.coil)) (t.posAt (outerPos r.coil)) x.id ∧
        (∀ p, p ≠ outerPos r.coil →
          ((∀ i, (s.posAt (outerPos r.coil)).id = some i → (s.posAt p).claim ≠ some i) →
            keepsBinding s t p ∧ (t.posAt p).claim = (s.posAt p).claim) ∧
          (∀ i, (s.posAt (outerPos r.coil)).id = some i → (s.posAt p).claim = some i → claimSettled s t p)) ∧
        (∀ c ∈ t.candidates, c.id ≠ x.id) ∧ t.trigger.queue = s.trigger.queue ∧ hostSideSame s t := by
    obtain ⟨hexec, hhost⟩ := classification_single h
    rw [slotOutcome_unheld (s := s.elapse dt) r.coil hx] at hexec hhost
    have haside := bindOrReplace_aside (s.elapse dt) (outerPos r.coil) x.id r.tag
    have hpos := posAt_bindOrReplace (s.elapse dt) (outerPos r.coil) (x := x.id) (tag := r.tag)
    have hlisted := not_listed_removeCandidate (s.elapse dt) x.id
    rw [← listed_of_aside haside] at hlisted
    have htrigger : ((s.elapse dt).bindOrReplace (outerPos r.coil) x.id r.tag).trigger = s.trigger :=
      trigger_of_aside (s := (s.elapse dt).removeCandidate x.id) haside
    have htook := tookId_takeId (s.elapse dt) (outerPos r.coil) x.id .classification
    have hbesides (p : Pos) (hp : p ≠ outerPos r.coil) := core_takeId_besides (s.elapse dt) x.id hp
    have hheld := heldBy_single (s := s) (c := r.coil) h.2.1
    rw [← hpos] at htook
    simp only [← hpos] at hbesides
    generalize (s.elapse dt).bindOrReplace (outerPos r.coil) x.id r.tag = u at *
    obtain ⟨hrecords, hqueue⟩ := closed_records (c := r.coil) (w := s.heldBy r.coil) (tag := r.tag) htrigger
    refine ⟨_, hexec, hrecords, tookId_closed htook, fun p hp => ⟨fun hc => ?_, fun i hi hc => ?_⟩,
      closed_unlisted hlisted, hqueue, hhost⟩
    · refine keepsBinding_closed (s := s) (hbesides p hp) fun i hi => hc i ?_
      rw [hheld] at hi
      simpa using hi
    · refine claimSettled_closed (s := s) (hbesides p hp) hc ?_
      rw [hheld, hi]
      exact List.mem_singleton.mpr rfl
  refine ⟨fun dt r x s h hx hnone => ?_, fun dt r x y s hok h hx hy => ?_, fun dt r x y s h hx hy hin hout => ?_⟩
  · obtain ⟨t, hexec, hrecords, htook, hothers, hrest⟩ := hone dt r x s h hx
    exact ⟨t, hexec, hrecords, htook, fun p hp => ((hothers p hp).1 fun i hi => by rw [hnone] at hi; cases hi).1, hrest⟩
  · obtain ⟨t, hexec, hrecords, htook, hothers, hrest⟩ := hone dt r x s h hx
    refine ⟨t, hexec, hrecords, htook, fun p hp => ⟨fun hc => (hothers p hp).1 fun i hi => ?_, fun hc =>
      (hothers p hp).2 y hy hc⟩, hrest⟩
    rw [hy] at hi
    exact (Option.some.inj hi) ▸ hc
  · obtain ⟨hexec, hhost⟩ := classification_twin h
    obtain ⟨-, hkind, -, -, -, hxy, -⟩ := h
    have hsettle := settleSlots_unheld (s := s.elapse dt) (c := r.coil) (tag := r.tag) hxy hx hy hin hout
    have hheld : s.heldBy r.coil = [] := by rw [heldBy_twin hkind, hin, hout]; rfl
    rw [hsettle, hheld] at hexec hhost
    have hne := innerPos_ne_outerPos r.coil
    have hfirst := posAt_bindOrReplace (s.elapse dt) (innerPos r.coil) (x := x.id) (tag := r.tag)
    have hfirstAside := bindOrReplace_aside (s.elapse dt) (innerPos r.coil) x.id r.tag
    have hfirstTook := tookId_takeId (s.elapse dt) (innerPos r.coil) x.id .classification
    have hfirstOthers (p : Pos) (hp : p ≠ innerPos r.coil) := core_takeId_besides (s.elapse dt) x.id hp
    rw [← hfirst] at hfirstTook
    simp only [← hfirst] at hfirstOthers
    generalize (s.elapse dt).bindOrReplace (innerPos r.coil) x.id r.tag = u at *
    have hsecond := posAt_bindOrReplace u (outerPos r.coil) (x := y.id) (tag := r.tag)
    have hsecondAside := bindOrReplace_aside u (outerPos r.coil) y.id r.tag
    have hsecondTook := tookId_takeId u (outerPos r.coil) y.id .classification
    have hsecondOthers (p : Pos) (hp : p ≠ outerPos r.coil) := core_takeId_besides u y.id hp
    rw [← hsecond] at hsecondTook
    simp only [← hsecond] at hsecondOthers
    generalize u.bindOrReplace (outerPos r.coil) y.id r.tag = v at *
    have hsecondTrigger : v.trigger = u.trigger := trigger_of_aside (s := u.removeCandidate y.id) hsecondAside
    have htrigger : v.trigger = s.trigger :=
      hsecondTrigger.trans (trigger_of_aside (s := (s.elapse dt).removeCandidate x.id) hfirstAside)
    obtain ⟨hrecords, hqueue⟩ := closed_records (c := r.coil) (w := []) (tag := r.tag) htrigger
    have hxlisted : x.id ∉ v.listed := by
      have hu := not_listed_removeCandidate (s.elapse dt) x.id
      rw [← listed_of_aside hfirstAside] at hu
      rw [listed_of_aside hsecondAside]
      exact fun hmem => hu ((List.filter_sublist.map Candidate.id).subset hmem)
    have hylisted : y.id ∉ v.listed := by
      rw [listed_of_aside hsecondAside]
      exact not_listed_removeCandidate u y.id
    have hepoch : (u.posAt (outerPos r.coil)).epoch = (s.posAt (outerPos r.coil)).epoch :=
      (congrArg PosRec.epoch (hfirstOthers _ hne.symm) :)
    have hinner : tookId (s.posAt (innerPos r.coil)) (v.posAt (innerPos r.coil)) x.id :=
      tookId_kept hfirstTook (PosRec.keptBut_of_core (hsecondOthers _ hne))
    have houter : tookId (s.posAt (outerPos r.coil)) (v.posAt (outerPos r.coil)) y.id := by
      unfold tookId at hsecondTook ⊢
      rw [hepoch] at hsecondTook
      exact hsecondTook
    exact ⟨_, hexec, hrecords, tookId_closed hinner, tookId_closed houter, fun p hpi hpo =>
      (keepsBinding_closed (s := s) ((hsecondOthers p hpo).trans (hfirstOthers p hpi)) fun i hi => absurd hi List.not_mem_nil).1,
      fun e he => ⟨closed_unlisted hxlisted e he, closed_unlisted hylisted e he⟩, hqueue, hhost⟩

end Sys2Proof.Machine
end

section
/-! A classification of held sensors (O23): confirmation, exchanges, move and claim (R74 to R78, R80). -/

namespace Sys2Proof.Machine
open Sys2Proof.Claim

/-! ### The outcomes of a slot (R74 to R78) -/

section
variable {s : State} {p q : Pos} {x y : SensorId} {tag : Byte}

theorem holder_of_id (hok : bindingsOk s) (h : (s.posAt q).id = some x) : s.holder x = some q := by
  have hmem : q ∈ positionsInOrder := List.mem_finRange q
  refine find_of_unique hmem (by simpa using h) fun b _ hb => ?_
  have hb' : (s.posAt b).id = some x := by simpa using hb
  obtain ⟨-, -, -, hunique⟩ := hok b
  exact hunique q (by rw [hb']; rfl) (hb'.trans h.symm)

theorem slotOutcome_confirms (c : Coil) (h : (s.posAt p).id = some x) : s.slotOutcome c p x tag = s.confirm p tag := if_pos h

theorem slotOutcome_moves (c : Coil) (hp : (s.posAt p).id = none) (hq : s.holder x = some q) :
    s.slotOutcome c p x tag = s.moveTo p q x tag := by
  unfold State.slotOutcome
  rw [hq, hp, if_neg fun h => nomatch h]

theorem slotOutcome_held (c : Coil) (hp : (s.posAt p).id = some y) (hyx : y ≠ x) (hq : s.holder x = some q) :
    s.slotOutcome c p x tag =
      if (s.posAt q).claim = some y then s.exchangeByClaim p q tag else s.claimFor c p q x tag := by
  unfold State.slotOutcome
  rw [hq, hp, if_neg fun h => hyx (Option.some.inj h)]

/-- R13, R75, R76: two positions that hold IDs exchange them. -/
theorem exchange_swaps (hpq : p ≠ q) (hp : (s.posAt p).id = some y) (hq : (s.posAt q).id = some x) :
    tookId (s.posAt p) ((s.exchange p q .classification).posAt p) x ∧
      tookId (s.posAt q) ((s.exchange p q .classification).posAt q) y ∧
      (∀ z, z ≠ p → z ≠ q → ((s.exchange p q .classification).posAt z).core = (s.posAt z).core) ∧
      (s.exchange p q .classification).trigger = s.trigger := by
  have hfirst := tookId_takeId s p x .classification
  have hothers (z : Pos) (hz : z ≠ p) := core_takeId_besides s x hz
  have hfirstTrigger : (s.takeId p x .classification).trigger = s.trigger :=
    trigger_of_aside (s := s.removeCandidate x) (takeId_aside s p x .classification)
  have hexchange : s.exchange p q .classification = (s.takeId p x .classification).takeId q y .classification := by
    rw [exchange_eq, hp, hq]
    rfl
  rw [hexchange]
  generalize s.takeId p x .classification = u at *
  have hepoch : (u.posAt q).epoch = (s.posAt q).epoch := (congrArg PosRec.epoch (hothers q hpq.symm) :)
  have hsecond := tookId_takeId u q y .classification
  have hsecondTrigger : (u.takeId q y .classification).trigger = u.trigger :=
    trigger_of_aside (s := u.removeCandidate y) (takeId_aside u q y .classification)
  refine ⟨tookId_kept hfirst (PosRec.keptBut_of_core (core_takeId_besides u y hpq)), ?_, fun z hzp hzq =>
    (core_takeId_besides u y hzq).trans (hothers z hzp), hsecondTrigger.trans hfirstTrigger⟩
  unfold tookId at hsecond ⊢
  rw [hepoch] at hsecond
  exact hsecond

theorem posAt_exchangeByClaim (s : State) (p q z : Pos) (tag : Byte) :
    (s.exchangeByClaim p q tag).posAt z = (s.exchange p q .classification).posAt z := posAt_notify ..

theorem exchangeByClaim_trigger (s : State) (p q : Pos) (tag : Byte) :
    (s.exchangeByClaim p q tag).trigger = (s.exchange p q .classification).trigger :=
  trigger_of_aside (notify_aside ..)

/-- R77: the slot takes the ID from its holder, which gives it up. -/
theorem moveTo_moves (hpq : p ≠ q) (s : State) (x : SensorId) (tag : Byte) :
    tookId (s.posAt p) ((s.moveTo p q x tag).posAt p) x ∧ gaveUpId (s.posAt q) ((s.moveTo p q x tag).posAt q) ∧
      (∀ z, z ≠ p → z ≠ q → ((s.moveTo p q x tag).posAt z).core = (s.posAt z).core) ∧
      (s.moveTo p q x tag).trigger = s.trigger := by
  have hgave := gaveUpId_giveUp s q .classification
  have hothers (z : Pos) (hz : z ≠ q) : ((s.giveUp q .unlearned .classification).posAt z).core = (s.posAt z).core := by
    rw [core_giveUp_other s .unlearned .classification hz, State.besides, claimAfter_classification]
    rfl
  have hgaveTrigger := trigger_of_aside (giveUp_aside s q .unlearned .classification)
  have hmove : s.moveTo p q x tag = ((s.giveUp q .unlearned .classification).takeId p x .classification).notify .moved
      (some p) tag x (BitVec.ofNat 32 q.val) := rfl
  rw [hmove]
  simp only [posAt_notify]
  generalize s.giveUp q .unlearned .classification = u at *
  have hepoch : (u.posAt p).epoch = (s.posAt p).epoch := (congrArg PosRec.epoch (hothers p hpq) :)
  have htook := tookId_takeId u p x .classification
  have htookTrigger : (u.takeId p x .classification).trigger = u.trigger :=
    trigger_of_aside (s := u.removeCandidate x) (takeId_aside u p x .classification)
  refine ⟨?_, gaveUpId_kept hgave (PosRec.keptBut_of_core (core_takeId_besides u x hpq.symm)), fun z hzp hzq =>
    (core_takeId_besides u x hzp).trans (hothers z hzq), ?_⟩
  · unfold tookId at htook ⊢
    rw [hepoch] at htook
    exact htook
  · exact (trigger_of_aside (notify_aside ..)).trans (htookTrigger.trans hgaveTrigger)

/-- R96: the deadlines that a confirmation arms. -/
theorem armsOnConfirm_iff (r : PosRec) : r.armsOnConfirm = true ↔
    r.state = .suspect ∨ r.state = .detached ∨ r.deadline = none := by
  unfold PosRec.armsOnConfirm
  simp [or_assoc]

end

/-- R59: of a SINGLE axle's coil only the outer position is served. -/
theorem servedBy_single {layout : Word} {c : Coil} (h : axleKind layout (coilAxle c) = .single) :
    servedBy layout c = [outerPos c] := by
  unfold servedBy
  rw [h]

/-- A position that the coil does not serve keeps its record at the end of the classification, its claim permitting. -/
theorem closed_exact {s u : State} {c : Coil} {w : List SensorId} {tag : Byte} {p : Pos} (hp : p ∉ servedBy u.layout c)
    (hpos : u.posAt p = s.posAt p) (hw : ∀ x ∈ w, (s.posAt p).claim ≠ some x) :
    (u.closed c w tag).posAt p = s.posAt p := by
  rw [closed_stays (by rw [hpos]; exact hw), if_neg (by simpa using hp), hpos]

/-- R78: the slot claims an ID. -/
def State.claiming (s : State) (p : Pos) (x : SensorId) : State := s.modPos p (fun r => { r with claim := some x })

/-- R78: the claim on a held ID, where an available coil serves the holder. -/
theorem claimFor_asks {s : State} {c d : Coil} {p q : Pos} {x : SensorId} {tag : Byte} (hside : sideCoil q ≠ some c)
    (hcoil : (servingCoil s.layout q).filter s.available = some d) : s.claimFor c p q x tag =
      ((s.claiming p x).offer { coil := d, purpose := .recheck, attempts := 0, tag := tag }).modPos q
        (fun r => { r with recheck := true }) := by
  have hcoil' : (servingCoil (s.modPos p (fun r => { r with claim := some x })).layout q).filter
      (s.modPos p (fun r => { r with claim := some x })).available = some d := hcoil
  unfold State.claimFor
  dsimp only
  rw [if_neg hside, hcoil']
  rfl

/-- R78: the claim on a held ID, where no available coil serves the holder. -/
theorem claimFor_conflicts {s : State} {c : Coil} {p q : Pos} {x : SensorId} {tag : Byte} (hside : sideCoil q ≠ some c)
    (hcoil : (servingCoil s.layout q).filter s.available = none) : s.claimFor c p q x tag =
      ((s.claiming p x).enter p .conflict).notify .conflict (some p) tag
        (((s.claiming p x).posAt p).id.getD 0) x := by
  have hcoil' : (servingCoil (s.modPos p (fun r => { r with claim := some x })).layout q).filter
      (s.modPos p (fun r => { r with claim := some x })).available = none := hcoil
  unfold State.claimFor
  dsimp only
  rw [if_neg hside, hcoil']
  rfl

/-- R78: what is left where the RECHECK of the holder's coil is queued. -/
theorem claimFor_asked {s : State} {c d : Coil} {p q : Pos} {x : SensorId} {tag : Byte} (hrun : s.control.op = .run)
    (hpq : p ≠ q) (hside : sideCoil q ≠ some c) (hcoil : (servingCoil s.layout q).filter s.available = some d)
    (havail : s.available d = true) (hfree : ∀ z ∈ s.trigger.queue, z.coil ≠ d) :
    (∀ z, (s.claimFor c p q x tag).posAt z = if z = q then { s.posAt q with recheck := true }
      else if z = p then { s.posAt p with claim := some x } else s.posAt z) ∧
    (s.claimFor c p q x tag).notices = s.notices ∧ (s.claimFor c p q x tag).layout = s.layout ∧
    (s.claimFor c p q x tag).trigger = { s.trigger with
      queue := s.trigger.queue ++ [{ coil := d, purpose := .recheck, attempts := 0, tag := tag }] } := by
  have hoffer : (s.claiming p x).offer { coil := d, purpose := .recheck, attempts := 0, tag := tag } =
      { s.claiming p x with trigger := { s.trigger with
        queue := s.trigger.queue ++ [{ coil := d, purpose := .recheck, attempts := 0, tag := tag }] } } := by
    have hcan : (s.claiming p x).control.op = .run ∧ (s.claiming p x).available d = true := ⟨hrun, havail⟩
    unfold State.offer
    dsimp only
    rw [if_pos hcan]
    exact congrArg (fun q => ({ s.claiming p x with trigger := { s.trigger with queue := q } } : State))
      (takeRequest_new hfree)
  have hclaiming (z : Pos) : (s.claiming p x).posAt z = if z = p then { s.posAt p with claim := some x } else s.posAt z :=
    posAt_modPos ..
  rw [claimFor_asks hside hcoil, hoffer]
  refine ⟨fun z => ?_, rfl, rfl, rfl⟩
  rw [posAt_modPos]
  change (if z = q then { (s.claiming p x).posAt q with recheck := true } else (s.claiming p x).posAt z) = _
  rw [hclaiming, hclaiming, if_neg hpq.symm]

/-- R78: what is left where the slot becomes CONFLICT. -/
theorem claimFor_conflicted {s : State} {c : Coil} {p q : Pos} {x : SensorId} {tag : Byte} (hside : sideCoil q ≠ some c)
    (hcoil : (servingCoil s.layout q).filter s.available = none) :
    ((s.claimFor c p q x tag).posAt p).core = { (s.posAt p).core with state := .conflict, claim := some x } ∧
    (∀ k, ((s.claimFor c p q x tag).alertAt p k).state = .clear) ∧
    (∀ z, z ≠ p → (s.claimFor c p q x tag).posAt z = s.posAt z) ∧
    (s.claimFor c p q x tag).trigger = s.trigger ∧ (s.claimFor c p q x tag).layout = s.layout := by
  have hcore := core_enter (s.claiming p x) p p .conflict
  have hclear := clear_enter_conflict (s.claiming p x) p
  have hothers (z : Pos) (hz : z ≠ p) : ((s.claiming p x).enter p .conflict).posAt z = s.posAt z :=
    (posAt_enter_other _ _ hz).trans (posAt_modPos_other _ _ _ _ hz)
  have hclaiming : (s.claiming p x).posAt p = { s.posAt p with claim := some x } := posAt_modPos_same ..
  have htrigger : ((s.claiming p x).enter p .conflict).trigger = s.trigger :=
    trigger_of_aside (s := s.claiming p x) (enter_aside ..)
  have hlayout : ((s.claiming p x).enter p .conflict).layout = s.layout :=
    layout_of_base (s := s.claiming p x) (enter_base ..)
  rw [if_pos rfl, hclaiming] at hcore
  rw [claimFor_conflicts hside hcoil]
  unfold State.alertAt at hclear ⊢
  generalize (s.claiming p x).enter p .conflict = v at *
  simp only [posAt_notify]
  exact ⟨hcore, hclear, hothers, (trigger_of_aside (notify_aside ..)).trans htrigger,
    (layout_of_base (notify_base ..)).trans hlayout⟩

/-- R59: the inner positions of a SINGLE axle are not in use. -/
theorem innerPos_unused {layout : Word} {c : Coil} (h : axleKind layout (coilAxle c) = .single) :
    inUse layout (innerPos c) = false := by
  have hslot : ∀ c : Coil, (slotOf (innerPos c) == 0 || slotOf (innerPos c) == 3) = false := by decide
  unfold inUse
  rw [(axleOf_slots c).1]
  dsimp only
  rw [h]
  exact hslot c

/-- On a SINGLE axle's side no position but the outer one holds an ID. -/
theorem holder_beside {s : State} {c : Coil} {q : Pos} {x y : SensorId} (hok : bindingsOk s)
    (hkind : axleKind s.layout (coilAxle c) = .single) (hp : (s.posAt (outerPos c)).id = some y)
    (hq : (s.posAt q).id = some x) (hyx : y ≠ x) : sideCoil q ≠ some c ∧ q ≠ outerPos c := by
  have hne : q ≠ outerPos c := by
    rintro rfl
    rw [hp] at hq
    exact hyx (Option.some.inj hq)
  refine ⟨fun hside => ?_, hne⟩
  obtain h | h := slot_of_sideCoil hside
  · exact hne h
  · have hused := used_of_holder hok (p := q) (by rw [hq]; rfl)
    rw [h, innerPos_unused hkind] at hused
    cases hused

/-- R80: with no claim that names an ID of the coil's positions the end of the classification raises no notice. -/
theorem closed_notices {s : State} {c : Coil} {w : List SensorId} {tag : Byte}
    (h : ∀ p, ∀ x ∈ w, (s.posAt p).claim ≠ some x) : (s.closed c w tag).notices = s.notices := by
  unfold State.closed
  rw [complete_quiet c h]
  rfl

/-- Settles O23: the outcome of the slot, then the end of the classification. -/
theorem classificationConfirms : Obligations.ClassificationConfirms := by
  refine ⟨fun dt r x s h hid => ?confirm, fun dt r x y s hok h hin hout hclaims => ?twin,
    fun dt r x q y s hok h hp hq hyx hc hclaims => ?exchange, fun dt r x q s hok h hp hq => ?move,
    fun dt r x q y s hok h hrun hp hq hyx hclaims => ⟨fun hcoil => ?ask, fun hcoil => ?conflict⟩⟩
  case confirm =>
    obtain ⟨hexec, hhost⟩ := classification_single h
    have hkind := h.2.1
    have hheld : s.heldBy r.coil = [x.id] := by rw [heldBy_single hkind, hid]; rfl
    rw [slotOutcome_confirms (s := s.elapse dt) r.coil hid, hheld] at hexec hhost
    have hcore := core_confirm (s.elapse dt) (outerPos r.coil) r.tag
    have hsilent := silent_confirm (s := s.elapse dt) (p := outerPos r.coil) r.tag
    have hothers (p : Pos) (hp : p ≠ outerPos r.coil) := posAt_confirm_other (s.elapse dt) r.tag hp
    have htrigger : ((s.elapse dt).confirm (outerPos r.coil) r.tag).trigger = s.trigger :=
      trigger_of_aside (s := s.elapse dt) (confirm_aside ..)
    have hserved : servedBy ((s.elapse dt).confirm (outerPos r.coil) r.tag).layout r.coil = [outerPos r.coil] :=
      servedBy_single (by rw [layout_of_base (confirm_base ..)]; exact hkind)
    generalize (s.elapse dt).confirm (outerPos r.coil) r.tag = u at *
    obtain ⟨hrecords, hqueue⟩ := closed_records (c := r.coil) (w := [x.id]) (tag := r.tag) htrigger
    have hclaim : (u.posAt (outerPos r.coil)).claim = none := (congrArg PosRec.claim hcore :)
    have ht := closed_stays (s := u) (c := r.coil) (w := [x.id]) (tag := r.tag) (p := outerPos r.coil)
      fun i _ => by rw [hclaim]; exact fun h => nomatch h
    have hrecheck := closed_recheck (w := [x.id]) (tag := r.tag) u (c := r.coil) (p := outerPos r.coil)
      (by rw [hserved]; exact List.mem_singleton.mpr rfl)
    refine ⟨_, hexec, hrecords, ?_⟩
    have hslot : ((u.closed r.coil [x.id] r.tag).posAt (outerPos r.coil)).core =
        { (u.posAt (outerPos r.coil)).core with recheck := false } := by
      rw [ht, if_pos (by rw [hserved]; simp)]
      rfl
    rw [hcore] at hslot
    refine ⟨(congrArg PosRec.state hslot :), (congrArg PosRec.id hslot :).trans hid, (congrArg PosRec.epoch hslot :),
      (congrArg PosRec.sample hslot :), (congrArg PosRec.claim hslot :), hrecheck, fun hsus => ?_,
      (congrArg PosRec.deadline hslot :).trans ?_, fun p hp => ⟨fun hc => ?_, fun hc => ?_⟩, hqueue, hhost⟩
    · rw [ht]
      exact hsilent hsus
    · exact if_congr (armsOnConfirm_iff _) rfl rfl
    · refine closed_exact (by rw [hserved]; simpa using hp) (hothers p hp) fun i hi => ?_
      rw [List.mem_singleton.mp hi]
      exact hc
    · exact claimSettled_closed (s := s) (congrArg PosRec.core (hothers p hp)) hc (List.mem_singleton.mpr rfl)
  case twin =>
    obtain ⟨hexec, hhost⟩ := classification_twin h
    obtain ⟨-, hkind, -, -, -, hxy, -⟩ := h
    have hne := innerPos_ne_outerPos r.coil
    have hheld : s.heldBy r.coil = [y.id, x.id] := by rw [heldBy_twin hkind, hin, hout]; rfl
    have hwithin : State.settleSlots r.coil r.tag [(innerPos r.coil, x.id), (outerPos r.coil, y.id)]
        [(innerPos r.coil, x.id), (outerPos r.coil, y.id)] (s.elapse dt) = (s.elapse dt).exchangeWithin r.coil r.tag := by
      have hthis : (s.elapse dt).exchangesWithin [(innerPos r.coil, x.id), (outerPos r.coil, y.id)] (innerPos r.coil) x.id =
          true := by
        unfold State.exchangesWithin
        rw [show ((s.elapse dt).posAt (innerPos r.coil)).id = some y.id from hin]
        refine List.any_eq_true.mpr ⟨(outerPos r.coil, y.id), List.mem_cons_of_mem _ (List.mem_singleton.mpr rfl), ?_⟩
        have hother : (((s.elapse dt).posAt (outerPos r.coil)).id == some x.id) = true := beq_iff_eq.mpr hout
        dsimp only
        rw [hother, beq_self_eq_true, bne_iff_ne.mpr hne.symm]
        rfl
      rw [State.settleSlots, if_pos hthis]
    rw [hwithin, hheld] at hexec hhost
    obtain ⟨hinner, houter, hothers, htrigger⟩ := exchange_swaps (s := s.elapse dt) hne hin hout
    have hpos (z : Pos) : ((s.elapse dt).exchangeWithin r.coil r.tag).posAt z =
        ((s.elapse dt).exchange (innerPos r.coil) (outerPos r.coil) .classification).posAt z := posAt_notify ..
    have htrig : ((s.elapse dt).exchangeWithin r.coil r.tag).trigger =
        ((s.elapse dt).exchange (innerPos r.coil) (outerPos r.coil) .classification).trigger :=
      trigger_of_aside (notify_aside ..)
    simp only [← hpos] at hinner houter hothers
    rw [← htrig] at htrigger
    generalize (s.elapse dt).exchangeWithin r.coil r.tag = u at *
    obtain ⟨hrecords, hqueue⟩ := closed_records (s := s) (c := r.coil) (w := [y.id, x.id]) (tag := r.tag) htrigger
    refine ⟨_, hexec, hrecords, tookId_closed hinner, tookId_closed houter, fun p hpi hpo =>
      (keepsBinding_closed (s := s) (hothers p hpi hpo) fun i hi => ?_).1, hqueue, hhost⟩
    obtain ⟨hx, hy⟩ := hclaims p hpi hpo
    obtain rfl | rfl := List.mem_pair.mp hi
    · exact hy
    · exact hx
  case exchange =>
    obtain ⟨hexec, hhost⟩ := classification_single h
    have hkind := h.2.1
    have hheld : s.heldBy r.coil = [y] := by rw [heldBy_single hkind, hp]; rfl
    have houtcome := slotOutcome_held (s := s.elapse dt) (tag := r.tag) r.coil hp hyx (holder_of_id (s := s.elapse dt) hok hq)
    rw [if_pos (show ((s.elapse dt).posAt q).claim = some y from hc)] at houtcome
    rw [houtcome, hheld] at hexec hhost
    obtain ⟨-, hne⟩ := holder_beside hok hkind hp hq hyx
    obtain ⟨hslot, hholder, hothers, htrigger⟩ := exchange_swaps (s := s.elapse dt) hne.symm hp hq
    have hpos := posAt_exchangeByClaim (s.elapse dt) (outerPos r.coil) q (tag := r.tag)
    simp only [← hpos] at hslot hholder hothers
    rw [← exchangeByClaim_trigger (tag := r.tag)] at htrigger
    have hserved : servedBy ((s.elapse dt).exchangeByClaim (outerPos r.coil) q r.tag).layout r.coil = [outerPos r.coil] :=
      servedBy_single (by rw [layout_of_base (exchangeByClaim_base ..)]; exact hkind)
    generalize (s.elapse dt).exchangeByClaim (outerPos r.coil) q r.tag = u at *
    obtain ⟨hrecords, hqueue⟩ := closed_records (s := s) (c := r.coil) (w := [y]) (tag := r.tag) htrigger
    refine ⟨_, hexec, hrecords, tookId_closed hslot, tookId_closed hholder,
      closed_recheck u (by rw [hserved]; exact List.mem_singleton.mpr rfl), fun p hpo hpq =>
        (keepsBinding_closed (s := s) (hothers p hpo hpq) fun i hi => ?_).1, hqueue, hhost⟩
    rw [List.mem_singleton.mp hi]
    exact hclaims p hpo hpq
  case move =>
    obtain ⟨hexec, hhost⟩ := classification_single h
    have hkind := h.2.1
    have hheld : s.heldBy r.coil = [] := by rw [heldBy_single hkind, hp]; rfl
    have houtcome := slotOutcome_moves (s := s.elapse dt) (tag := r.tag) r.coil hp (holder_of_id (s := s.elapse dt) hok hq)
    rw [houtcome, hheld] at hexec hhost
    have hne : outerPos r.coil ≠ q := by
      rintro rfl
      rw [hp] at hq
      cases hq
    obtain ⟨hslot, hholder, hothers, htrigger⟩ := moveTo_moves hne (s.elapse dt) x.id r.tag
    generalize (s.elapse dt).moveTo (outerPos r.coil) q x.id r.tag = u at *
    obtain ⟨hrecords, hqueue⟩ := closed_records (s := s) (c := r.coil) (w := []) (tag := r.tag) htrigger
    exact ⟨_, hexec, hrecords, tookId_closed hslot, gaveUpId_closed hholder, fun p hpo hpq =>
      (keepsBinding_closed (s := s) (hothers p hpo hpq) fun i hi => absurd hi List.not_mem_nil).1, hqueue, hhost⟩
  case ask =>
    obtain ⟨d, hd, havail, hfree⟩ := hcoil
    obtain ⟨hexec, hhost⟩ := classification_single h
    have hkind := h.2.1
    have hheld : s.heldBy r.coil = [y] := by rw [heldBy_single hkind, hp]; rfl
    have houtcome := slotOutcome_held (s := s.elapse dt) (tag := r.tag) r.coil hp hyx (holder_of_id (s := s.elapse dt) hok hq)
    rw [if_neg (show ¬ ((s.elapse dt).posAt q).claim = some y from hclaims q)] at houtcome
    obtain ⟨hside, hne⟩ := holder_beside hok hkind hp hq hyx
    have hserves : (servingCoil s.layout q).filter s.available = some d := by
      rw [servingCoil, if_pos (used_of_holder hok (by rw [hq]; rfl)), hd, Option.filter_some, if_pos havail]
    have hserved : q ∉ servedBy s.layout r.coil := by
      rw [servedBy_single hkind]
      simpa using hne
    rw [houtcome, hheld] at hexec hhost
    obtain ⟨hpos, hnotices, hlayout, htrigger⟩ :=
      claimFor_asked (s := s.elapse dt) (x := x.id) (tag := r.tag) hrun hne.symm hside hserves havail hfree
    have hlay : (s.elapse dt).layout = s.layout := rfl
    have hold (z : Pos) : (s.elapse dt).posAt z = s.posAt z := rfl
    simp only [hlay, hold] at hlayout hpos
    generalize (s.elapse dt).claimFor r.coil (outerPos r.coil) q x.id r.tag = u at *
    have hquiet (z : Pos) : ∀ i ∈ [y], (u.posAt z).claim ≠ some i := by
      intro i hi
      rw [List.mem_singleton.mp hi, hpos]
      split
      · exact hclaims q
      · split
        · exact fun h => hyx (Option.some.inj h).symm
        · exact hclaims z
    have hend (z : Pos) := closed_stays (c := r.coil) (tag := r.tag) (hquiet z)
    have htrig := closed_trigger (w := [y]) (tag := r.tag) u r.coil
    have hfinal := closed_notices (c := r.coil) (tag := r.tag) hquiet
    rw [htrigger] at htrig
    rw [hlayout] at hend
    generalize u.closed r.coil [y] r.tag = t at *
    refine ⟨t, d, hexec, (congrArg Trigger.records htrig :), hd, (congrArg Trigger.queue htrig :), ?_, ?_, ?_, fun z => ?_,
      hfinal.trans hnotices, hhost⟩
    · rw [hend, hpos, if_pos rfl]
      exact if_neg (by simpa using hserved)
    · rw [hend, hpos, if_neg hne.symm, if_pos rfl]
    · rw [hend, hpos, if_neg hne.symm, if_pos rfl]
    · rw [hend, hpos]
      split
      · next hz => rw [hz]; exact ⟨rfl, rfl, rfl⟩
      · split
        · next hz => rw [hz]; exact ⟨rfl, rfl, rfl⟩
        · exact ⟨rfl, rfl, rfl⟩
  case conflict =>
    obtain ⟨hexec, hhost⟩ := classification_single h
    have hkind := h.2.1
    have hheld : s.heldBy r.coil = [y] := by rw [heldBy_single hkind, hp]; rfl
    have houtcome := slotOutcome_held (s := s.elapse dt) (tag := r.tag) r.coil hp hyx (holder_of_id (s := s.elapse dt) hok hq)
    rw [if_neg (show ¬ ((s.elapse dt).posAt q).claim = some y from hclaims q)] at houtcome
    obtain ⟨hside, hne⟩ := holder_beside hok hkind hp hq hyx
    have hserves : (servingCoil s.layout q).filter s.available = none := by
      rw [servingCoil, if_pos (used_of_holder hok (by rw [hq]; rfl))]
      obtain hd | ⟨d, hd, havail⟩ := hcoil
      · rw [hd]
        rfl
      · rw [hd, Option.filter_some, if_neg (by rw [havail]; decide)]
    rw [houtcome, hheld] at hexec hhost
    obtain ⟨hcore, hclear, hothers, htrigger, hlayout⟩ :=
      claimFor_conflicted (s := s.elapse dt) (p := outerPos r.coil) (x := x.id) (tag := r.tag) hside hserves
    generalize (s.elapse dt).claimFor r.coil (outerPos r.coil) q x.id r.tag = u at *
    obtain ⟨hrecords, hqueue⟩ := closed_records (s := s) (c := r.coil) (w := [y]) (tag := r.tag) htrigger
    have hslot := closed_stays (s := u) (c := r.coil) (w := [y]) (tag := r.tag) (p := outerPos r.coil) fun i hi => by
      have hclaim : (u.posAt (outerPos r.coil)).claim = some x.id := (congrArg PosRec.claim hcore :)
      rw [List.mem_singleton.mp hi, hclaim]
      exact fun h => hyx (Option.some.inj h).symm
    refine ⟨_, hexec, hrecords, hqueue, ?_, ?_, ?_, ?_, fun k => ?_, fun z hz => ?_, hhost⟩
    · rw [hslot]
      exact (congrArg PosRec.state hcore :)
    · rw [hslot]
      exact (congrArg PosRec.claim hcore :)
    · rw [hslot]
      exact (congrArg PosRec.id hcore :).trans hp
    · rw [hslot]
      exact (congrArg PosRec.epoch hcore :)
    · unfold State.alertAt at hclear ⊢
      rw [hslot]
      exact hclear k
    · refine closed_exact ?_ (hothers z hz) fun i hi => ?_
      · rw [hlayout]
        change z ∉ servedBy s.layout r.coil
        rw [servedBy_single hkind]
        simpa using hz
      · rw [List.mem_singleton.mp hi]
        exact hclaims z

end Sys2Proof.Machine
end

section
/-! Load results (O34): a LOAD READ result is discarded, taken or refused, and the last one enters RUN (R155, R156, R176). -/

namespace Sys2Proof.Machine
open Sys2Proof.Claim

/-! ### What the taking of a word leaves of the load (R155, R175) -/

/-- What belongs to the load and to the memory, and not to the copies of the words. -/
structure LoadView where
  now : Time
  op : OpState
  settingsLoaded : Bool
  loaded : Vector Bool 35
  timer : Option Time
  mem : List Host.Cell
  pending : List Instr

def State.loadView (s : State) : LoadView :=
  { now := s.now, op := s.control.op, settingsLoaded := s.control.settingsLoaded, loaded := s.control.loaded,
    timer := s.sweep.timer, mem := s.mem, pending := s.pending }

theorem loadView_of_base {s t : State} (h : t.base = s.base) : t.loadView = s.loadView :=
  congrArg (fun b : Base => (LoadView.mk b.now b.op b.settingsLoaded b.loaded b.sweep.timer b.mem b.pending)) h

/-- R144: a restart of the history belongs to the two periods. -/
def SettingWord.restarts : SettingWord → Bool
  | .historyDepth | .sweepPeriod => true
  | _ => false

/-- What the owner of a word leaves: the load, and every copy or those that a restart of the history leaves. -/
def ownerLeaves (s t : State) (w : SettingWord) (changed : Prop) : Prop :=
  t.loadView = s.loadView ∧
    ((¬ (w.restarts = true ∧ changed) ∧ t.snoop = s.snoop) ∨
      (w.restarts = true ∧ changed ∧ t.snoop = s.restartHistory.snoop))

theorem ownerLeaves_of_same {s t : State} {w : SettingWord} {changed : Prop} (hw : w.restarts = false)
    (hview : t.loadView = s.loadView) (hsnoop : t.snoop = s.snoop) : ownerLeaves s t w changed :=
  ⟨hview, .inl ⟨fun hr => absurd (hw.symm.trans hr.1) (by decide), hsnoop⟩⟩

theorem ownerLeaves_of_base {s t : State} {w : SettingWord} {changed : Prop} (hw : w.restarts = false) (h : t.base = s.base) :
    ownerLeaves s t w changed := ownerLeaves_of_same hw (loadView_of_base h) (congrArg Base.snoop h)

theorem restartIfChanged_leaves {w : SettingWord} (hw : w.restarts = true) (s : State) (o n : Word) :
    ownerLeaves s (s.restartIfChanged o n) w (bits o 0 16 ≠ bits n 0 16) := by
  unfold State.restartIfChanged
  split
  · next h => exact ⟨rfl, .inl ⟨fun hr => hr.2 h, rfl⟩⟩
  · next h => exact ⟨rfl, .inr ⟨hw, h, rfl⟩⟩

/-- R175: the owners of the words. -/
theorem applySetting_leaves (s : State) (w : SettingWord) (o n : Word) :
    ownerLeaves s (s.applySetting w o n) w (bits o 0 16 ≠ bits n 0 16) := by
  have hbody (u : State) (b : Bool) : (u.takeBody b).loadView = u.loadView ∧ (u.takeBody b).snoop = u.snoop := by
    rw [takeBody_eq]
    exact ⟨rfl, rfl⟩
  cases w with
  | axleLayout => exact ownerLeaves_of_base rfl (takeLayout_base s o n)
  | laneMask => exact ownerLeaves_of_same rfl rfl rfl
  | vehicle =>
    change ownerLeaves s (s.takeBody (o.getLsbD 8)).clampAll .vehicle _
    obtain ⟨hview, hsnoop⟩ := hbody s (o.getLsbD 8)
    generalize s.takeBody (o.getLsbD 8) = u at hview hsnoop ⊢
    have hclamp := clampAll_base u
    generalize u.clampAll = t at hclamp ⊢
    exact ownerLeaves_of_same rfl ((loadView_of_base hclamp).trans hview) ((congrArg Base.snoop hclamp).trans hsnoop)
  | rollingRange => exact ownerLeaves_of_base rfl (clampAll_base s)
  | parkedRange => exact ownerLeaves_of_base rfl (clampAll_base s)
  | driftLimit => exact ownerLeaves_of_same rfl rfl rfl
  | silenceMultiple => exact ownerLeaves_of_base rfl (recomputeDeadlines_base s)
  | ackLimit => exact ownerLeaves_of_base rfl (refreshOutputs_base s false)
  | escAction => exact ownerLeaves_of_base rfl (refreshOutputs_base s false)
  | sweepPeriod => exact restartIfChanged_leaves rfl s o n
  | historyDepth => exact restartIfChanged_leaves rfl s o n
  | _ => exact ownerLeaves_of_same rfl rfl rfl

/-- R176: a refused word leaves the load and every copy. -/
theorem refuseSetting_leaves (s : State) (o : Nat) (v : Word) : (s.refuseSetting o v).loadView = s.loadView ∧
    (s.refuseSetting o v).snoop = { s.snoop with refusedOffset := some o } := by
  have hbase : (s.refuseSetting o v).base =
      ({ s with snoop := { s.snoop with refusedOffset := some o } } : State).base := notify_base ..
  exact ⟨loadView_of_base (s := { s with snoop := { s.snoop with refusedOffset := some o } }) hbase,
    congrArg Base.snoop hbase⟩

/-! ### The end of a load (R155, R161) -/

/-- R155: what the setting of a loaded flag in LOADING does. -/
structure LoadEnds (u t : State) (w : SettingWord) : Prop where
  snoop : t.snoop = u.snoop
  mem : t.mem = u.mem
  pending : t.pending = u.pending
  flag : t.isLoaded w = true
  others : ∀ x, x ≠ w → t.isLoaded x = u.isLoaded x
  stays : (∃ x, x ≠ w ∧ u.isLoaded x = false) → t.control.op = .loading ∧
    t.control.settingsLoaded = u.control.settingsLoaded ∧ t.sweep.timer = u.sweep.timer
  enters : (∀ x, x ≠ w → u.isLoaded x = true) → t.control.op = .run ∧ t.control.settingsLoaded = true ∧
    t.control.parked = [] ∧ t.sweep.timer = some (u.now + 1000 * u.setting .sweepPeriod) ∧
    ∀ l, (t.intake.lanes.get l).quietCount = 0

theorem completeLoad_ends {u : State} (w : SettingWord) (hop : u.control.op = .loading) :
    LoadEnds u (u.markLoaded w).completeLoad w := by
  have hflag := isLoaded_markLoaded_same u w
  have hother (x : SettingWord) (hx : x ≠ w) := isLoaded_markLoaded_other u hx
  by_cases hall : ∀ x, x ≠ w → u.isLoaded x = true
  · have hloaded (x : SettingWord) : (u.markLoaded w).isLoaded x = true := by
      by_cases hx : x = w
      · rw [hx]
        exact hflag
      · rw [hother x hx]
        exact hall x hx
    rw [completeLoad_enters (s := u.markLoaded w) hop hloaded]
    have hquiet := enterRun_quietCount
      ({ u.markLoaded w with control := { (u.markLoaded w).control with settingsLoaded := true } } : State)
    obtain ⟨n, p, i, q, hshape⟩ := enterRun_shape
      ({ u.markLoaded w with control := { (u.markLoaded w).control with settingsLoaded := true } } : State)
    rw [hshape] at hquiet ⊢
    refine ⟨rfl, rfl, rfl, hflag, hother, fun ⟨x, hx, hclear⟩ => ?_, fun _ => ⟨rfl, rfl, rfl, rfl, hquiet⟩⟩
    rw [hall x hx] at hclear
    cases hclear
  · push Not at hall
    obtain ⟨x, hx, hclear⟩ := hall
    have hclear' : u.isLoaded x = false := Bool.eq_false_of_not_eq_true hclear
    rw [completeLoad_stays fun _ => ⟨x, (hother x hx).trans hclear'⟩]
    exact ⟨rfl, rfl, rfl, hflag, hother, fun _ => ⟨hop, rfl, rfl⟩, fun h => absurd (h x hx) hclear⟩

/-! ### The obligation -/

/-- R155: the completion of a LOAD READ. -/
theorem exec_loadResult {s : State} {b : Issued} {w : SettingWord} (dt : Nat) (hbus : s.path.bus = some b)
    (hentry : b.entry = { access := .read, offset := w.offset, origin := .load }) (hrep : b.reported = true)
    (hheld : s.path.held = none) : exec (.partAccessComplete dt) s =
      .next (({ s.elapse dt with path := { s.path with bus := none } } : State).takeLoaded w (readWord s.mem b.addr)) := by
  have hdone : (s.elapse dt).accessDone b = { s.elapse dt with path := { s.path with bus := none } } := by
    unfold State.accessDone
    rw [hentry]
    rfl
  rw [exec_partAccessComplete_free dt hbus hheld, completeAccess_reported (s := s.elapse dt) hbus hrep, hdone, State.report,
    hentry]
  dsimp only
  rw [State.loadResult, settingWordAt_offset]
  rfl

/-- R155, R156, R176: a word loaded in LOADING, taken or refused by its owner. -/
theorem takeSetting_loads (s : State) (w : SettingWord) (v : Word) :
    (s.takeSetting w v).loadView = s.loadView ∧
    (allowedWord w v (s.setting .historyDepth) → ownerLeaves (s.setCopy w v) (s.takeSetting w v) w
      (bits (s.copy w) 0 16 ≠ bits v 0 16)) ∧
    (¬ allowedWord w v (s.setting .historyDepth) →
      (s.takeSetting w v).snoop = { s.snoop with refusedOffset := some w.offset }) := by
  have htest := settingOk_iff w v (s.setting .historyDepth)
  unfold State.takeSetting
  by_cases hok : allowedWord w v (s.setting .historyDepth)
  · have hleaves := applySetting_leaves (s.setCopy w v) w (s.copy w) v
    rw [if_pos (htest.mpr hok)]
    exact ⟨hleaves.1, fun _ => hleaves, fun h => absurd hok h⟩
  · obtain ⟨hview, hsnoop⟩ := refuseSetting_leaves s w.offset v
    rw [if_neg fun h => hok (htest.mp h)]
    exact ⟨hview, fun h => absurd h hok, fun _ => hsnoop⟩

/-- R144, R156: the copies after an allowed word is taken. -/
theorem copies_of_taken {s t : State} {w : SettingWord} {v : Word}
    (h : ownerLeaves (s.setCopy w v) t w (bits (s.copy w) 0 16 ≠ bits v 0 16)) :
    t.copy w = v ∧ (∀ x, x ≠ w → x ≠ .viewLag → t.copy x = s.copy x) ∧
      (w ≠ .historyDepth → w ≠ .sweepPeriod → w ≠ .viewLag → t.copy .viewLag = s.copy .viewLag) ∧
      (w = .historyDepth → bits v 0 16 ≠ s.setting .historyDepth →
        t.setting .viewLag = if bits v 0 16 ≤ s.setting .viewLag then 0 else s.setting .viewLag) ∧
      t.snoop.refusedOffset = s.snoop.refusedOffset := by
  have hsame := setCopy_copy_same s w v
  have hother (x : SettingWord) (hx : x ≠ w) := setCopy_copy_other s w x v hx
  have hcopy {u u' : State} (hu : u.snoop = u'.snoop) (x : SettingWord) : u.copy x = u'.copy x := by
    unfold State.copy
    rw [hu]
  obtain ⟨-, ⟨hno, hsnoop⟩ | ⟨hre, -, hsnoop⟩⟩ := h
  · refine ⟨(hcopy hsnoop w).trans hsame, fun x hx _ => (hcopy hsnoop x).trans (hother x hx), fun _ _ hv =>
      (hcopy hsnoop .viewLag).trans (hother _ hv.symm), fun hw hne => ?_, (congrArg Snoop.refusedOffset hsnoop :)⟩
    subst hw
    exact absurd ⟨rfl, hne.symm⟩ hno
  · obtain ⟨hcopies, hview, hrest⟩ := restartHistory_copies (s.setCopy w v)
    have hne : w ≠ .viewLag := by
      rintro rfl
      cases hre
    refine ⟨(hcopy hsnoop w).trans ((hcopies w hne).trans hsame), fun x hx hxv =>
      (hcopy hsnoop x).trans ((hcopies x hxv).trans (hother x hx)), fun hd hp _ => ?_, fun hw _ => ?_, ?_⟩
    · cases w <;> first | exact absurd rfl hd | exact absurd rfl hp | cases hre
    · subst hw
      have hset : t.setting .viewLag = (s.setCopy .historyDepth v).restartHistory.setting .viewLag :=
        congrArg (bits · 0 16) (hcopy hsnoop .viewLag)
      have hdepth : (s.setCopy .historyDepth v).setting .historyDepth = bits v 0 16 := congrArg (bits · 0 16) hsame
      have hlag : (s.setCopy .historyDepth v).setting .viewLag = s.setting .viewLag :=
        congrArg (bits · 0 16) (hother .viewLag (by decide))
      rw [hset, hview, hdepth, hlag]
    · rw [hsnoop]
      exact (congrArg Snoop.refusedOffset hrest :)

/-- Settles O34: the taking of a word (`takeSetting_loads`), then the end (`completeLoad_ends`). -/
theorem loadResultsAreDiscardedOrTaken : Obligations.LoadResultsAreDiscardedOrTaken := by
  refine ⟨fun dt b w s hbus hentry hrep hheld hloaded => ?_, fun dt b w s hbus hentry hrep hheld hop hclear => ?_⟩
  · rw [exec_loadResult dt hbus hentry hrep hheld]
    exact congrArg Host.Outcome.next (if_pos hloaded)
  · intro v
    have hexec := exec_loadResult dt hbus hentry hrep hheld
    have hnot : ¬ ({ s.elapse dt with path := { s.path with bus := none } } : State).isLoaded w = true := by
      change ¬ s.isLoaded w = true
      rw [hclear]
      decide
    rw [State.takeLoaded, if_neg hnot] at hexec
    obtain ⟨hview, hallowed, hrefused⟩ := takeSetting_loads { s.elapse dt with path := { s.path with bus := none } } w v
    change exec (.partAccessComplete dt) s = .next ((({ s.elapse dt with path := { s.path with bus := none } } : State).takeSetting
      w v).markLoaded w).completeLoad at hexec
    generalize ({ s.elapse dt with path := { s.path with bus := none } } : State).takeSetting w v = u at *
    have hends := completeLoad_ends w ((congrArg LoadView.op hview).trans hop)
    generalize (u.markLoaded w).completeLoad = t at *
    have hflags (x : SettingWord) : u.isLoaded x = s.isLoaded x :=
      congrArg (fun l : Vector Bool 35 => l.get x.index) (congrArg LoadView.loaded hview)
    have hcopies (x : SettingWord) : t.copy x = u.copy x := by
      unfold State.copy
      rw [hends.snoop]
    have hset (x : SettingWord) : t.setting x = u.setting x := congrArg (bits · 0 16) (hcopies x)
    have hnow : u.now = s.now + dt := (congrArg LoadView.now hview :)
    refine ⟨t, hexec, hends.flag, fun x hx => (hends.others x hx).trans (hflags x), fun hok => ?allowed, fun hno => ?refused,
      fun ⟨x, hx, hxc⟩ => ?stays, fun hall => ?enters, hends.mem.trans (congrArg LoadView.mem hview :),
      hends.pending.trans (congrArg LoadView.pending hview :)⟩
    case allowed =>
      obtain ⟨h1, h2, h3, h4, h5⟩ := copies_of_taken (hallowed hok)
      rw [hends.snoop, hset]
      simp only [hcopies]
      exact ⟨h1, h2, h3, h4, h5⟩
    case refused =>
      rw [hends.snoop, hrefused hno]
      exact ⟨rfl, rfl⟩
    case stays =>
      obtain ⟨hop', hloaded, htimer⟩ := hends.stays ⟨x, hx, (hflags x).trans hxc⟩
      exact ⟨hop', hloaded.trans (congrArg LoadView.settingsLoaded hview :),
        htimer.trans (congrArg LoadView.timer hview :)⟩
    case enters =>
      obtain ⟨hop', hloaded, hparked, htimer, hquiet⟩ := hends.enters fun x hx => (hflags x).trans (hall x hx)
      rw [hnow, ← hset] at htimer
      exact ⟨hop', hloaded, hparked, htimer, hquiet⟩

end Sys2Proof.Machine
end

section
/-! What the words of a captured group show (R136 to R138, R186, R187; 11.3, 11.4): the history cell, the status entry, a
candidate record, a limit set, the header and the detail list. -/

namespace Sys2Proof.Machine
open Sys2Proof.Claim

theorem flag_eq (b : Bool) (lo : Nat) : flag b lo = 2 ^ lo * b.toNat := by cases b <;> simp [flag]

theorem toNat_le_one (b : Bool) : b.toNat ≤ 1 := by cases b <;> decide

theorem bits_packed_sum (fields : List Nat) (lo width : Nat) :
    bits (packed fields) lo width = fields.sum % 2 ^ 32 / 2 ^ lo % 2 ^ width := by
  rw [bits, packed, BitVec.toNat_ofNat]

/-- The sum of the flags that the seven alert kinds put in their bits. -/
theorem sum_alertKinds (f : AlertKind → Nat) : (alertKinds.map f).sum =
    f .low + f .high + f .hot + f .leak + f .mismatch + f .silent + f .sensor := by
  simp only [alertKinds, List.map_cons, List.map_nil, List.sum_cons, List.sum_nil]
  omega

/-! ### A position's cell and its status entry -/

theorem rawCode_lt (r : PosRec) : r.rawCode < 1024 := by
  unfold PosRec.rawCode
  split
  · exact BitVec.isLt _
  · decide

/-- R137, 11.4: the two words of a cell. -/
theorem cellShows_words (r : PosRec) (stamp : BitVec 16) :
    cellShows r stamp ((cellWords r stamp).getD 0 0) ((cellWords r stamp).getD 1 0) := by
  have hraw := rawCode_lt r
  have hvalid := toNat_le_one r.cellValid
  have hstamp := stamp.isLt
  have hepoch := r.epoch.isLt
  have hflag (k : AlertKind) := toNat_le_one (r.alerts.get k).standing
  have hany := toNat_le_one (r.alerts.anyRec (fun x => x.standing && x.level == .alarm))
  have h0 := hflag .low
  have h1 := hflag .high
  have h2 := hflag .hot
  have h3 := hflag .leak
  have h4 := hflag .mismatch
  have h5 := hflag .silent
  have h6 := hflag .sensor
  unfold cellShows
  rw [show ((r.state == .bound || r.state == .suspect || r.state == .conflict) && r.cold.isSome) = r.cellValid from rfl,
    show (alertKinds.any fun k => (r.alerts.get k).standing && (r.alerts.get k).level == .alarm) =
      r.alerts.anyRec (fun x => x.standing && x.level == .alarm) from rfl]
  simp only [cellWords, List.getD_cons_succ, List.getD_cons_zero, Alerts.summary, sum_alertKinds, AlertKind.num, flag_eq,
    bits_packed_sum, field, List.sum_cons, List.sum_nil]
  refine ⟨by omega, by omega, by omega, by omega, by omega, by omega, fun k => ?_, by omega, by omega⟩
  cases k <;> simp only <;> omega

theorem homeCode_eq (l : Option Lane) : homeCode l = ((l.map laneNum).map (· + 1)).getD 0 ∧ homeCode l < 8 := by
  cases l with
  | none => decide
  | some l => cases l <;> decide

/-- R186, 11.3: the fields of word 04 of a status entry. -/
theorem entryWord04_eq (r : PosRec) (lifted : Bool) (limitIndex : Nat) : entryWord04 r lifted limitIndex =
    packed [field r.state.code 0 3, flag lifted 3, field limitIndex 4 4, field r.epoch.toNat 8 8,
      field (homeCode r.homeLane) 16 3, flag r.recheck 19, flag r.deadline.isSome 20,
      flag ((r.sample.map Sample.motion).getD false) 21, flag ((r.sample.map Sample.battery).getD false) 22,
      flag ((r.sample.map Sample.fault).getD false) 23, field ((r.sample.map (fun x => x.kind.code)).getD 0) 24 2,
      field ((r.sample.map (fun x => x.seq.toNat)).getD 0) 26 4, flag r.sample.isSome 30] := by
  unfold entryWord04
  cases r.sample with
  | none => rfl
  | some x => rfl

theorem signedBits_eq (v : Int) (width : Nat) : signedBits v width = (BitVec.ofInt width v).toNat := by
  rw [BitVec.toNat_ofInt, signedBits]
  norm_cast

/-- R186, 11.3: word 04 of a status entry. -/
theorem entryWord04_shows (r : PosRec) (lifted : Bool) (limitIndex : Fin 16) :
    let w := entryWord04 r lifted limitIndex.val
    bits w 0 3 = r.state.code ∧ bits w 3 1 = lifted.toNat ∧ bits w 4 4 = limitIndex.val ∧
      bits w 8 8 = r.epoch.toNat ∧ bits w 16 3 = ((r.homeLane.map laneNum).map (· + 1)).getD 0 ∧
      bits w 19 1 = r.recheck.toNat ∧ bits w 20 1 = r.deadline.isSome.toNat ∧
      bits w 21 1 = ((r.sample.map Sample.motion).getD false).toNat ∧
      bits w 22 1 = ((r.sample.map Sample.battery).getD false).toNat ∧
      bits w 23 1 = ((r.sample.map Sample.fault).getD false).toNat ∧
      bits w 24 2 = (r.sample.map (fun x => x.kind.code)).getD 0 ∧
      bits w 26 4 = (r.sample.map (fun x => x.seq.toNat)).getD 0 ∧ bits w 30 2 = r.sample.isSome.toNat := by
  intro w
  have hstate : r.state.code < 8 := by cases r.state <;> decide
  obtain ⟨hhome, hhomelt⟩ := homeCode_eq r.homeLane
  have hepoch := r.epoch.isLt
  have hlimit := limitIndex.isLt
  have hkind : (r.sample.map (fun x => x.kind.code)).getD 0 < 4 := by
    cases r.sample with
    | none => decide
    | some x => change x.kind.code < 4; cases x.kind <;> decide
  have hseq : (r.sample.map (fun x => x.seq.toNat)).getD 0 < 16 := by
    cases r.sample with
    | none => decide
    | some x => exact x.seq.isLt
  have hb1 := toNat_le_one lifted
  have hb2 := toNat_le_one r.recheck
  have hb3 := toNat_le_one r.deadline.isSome
  have hb4 := toNat_le_one ((r.sample.map Sample.motion).getD false)
  have hb5 := toNat_le_one ((r.sample.map Sample.battery).getD false)
  have hb6 := toNat_le_one ((r.sample.map Sample.fault).getD false)
  have hb7 := toNat_le_one r.sample.isSome
  rw [← hhome]
  simp only [w, entryWord04_eq, bits_packed_sum, flag_eq, field, List.sum_cons, List.sum_nil]
  refine ⟨?_, ?_, ?_, ?_, ?_, ?_, ?_, ?_, ?_, ?_, ?_, ?_, ?_⟩ <;> omega

/-- A number of seven digits in base 16, by alert kind. -/
theorem digit_alertKinds (f : AlertKind → Nat) (hf : ∀ k, f k < 16) (k : AlertKind) :
    (packed (alertKinds.map fun k => field (f k) (4 * k.num) 4)).toNat / 2 ^ (4 * k.num) % 16 = f k := by
  have h0 := hf .low
  have h1 := hf .high
  have h2 := hf .hot
  have h3 := hf .leak
  have h4 := hf .mismatch
  have h5 := hf .silent
  have h6 := hf .sensor
  rw [packed, sum_alertKinds, BitVec.toNat_ofNat]
  cases k <;> simp only [AlertKind.num, field] <;> omega

theorem nibble_eq (r : AlertRec) :
    r.nibble = r.state.code + 4 * (r.level == .alarm).toNat + 8 * r.acked.toNat ∧ r.state.code < 4 := by
  refine ⟨?_, by cases r.state <;> decide⟩
  rw [AlertRec.nibble, flag_eq, flag_eq]
  norm_num

/-- R186, 11.3: word 18 of a status entry, the alert records. -/
theorem alertWord_shows (v : Alerts) :
    let w := packed (alertKinds.map (fun k => field (v.get k).nibble (4 * k.num) 4))
    (∀ k : AlertKind, bits w (4 * k.num) 2 = (v.get k).state.code ∧
      bits w (4 * k.num + 2) 1 = ((v.get k).level == .alarm).toNat ∧
      bits w (4 * k.num + 3) 1 = (v.get k).acked.toNat) ∧ bits w 28 4 = 0 := by
  intro w
  have hlt (k : AlertKind) : (v.get k).nibble < 16 := by
    obtain ⟨hn, hcode⟩ := nibble_eq (v.get k)
    have hlevel := toNat_le_one ((v.get k).level == .alarm)
    have hacked := toNat_le_one (v.get k).acked
    omega
  refine ⟨fun k => ?_, ?_⟩
  · obtain ⟨hn, hcode⟩ := nibble_eq (v.get k)
    have hlevel := toNat_le_one ((v.get k).level == .alarm)
    have hacked := toNat_le_one (v.get k).acked
    have hdigit : w.toNat / 2 ^ (4 * k.num) % 16 = (v.get k).nibble := digit_alertKinds (fun k => (v.get k).nibble) hlt k
    simp only [bits, pow_add, ← Nat.div_div_eq_div_mul]
    omega
  · have h0 := hlt .low
    have h1 := hlt .high
    have h2 := hlt .hot
    have h3 := hlt .leak
    have h4 := hlt .mismatch
    have h5 := hlt .silent
    have h6 := hlt .sensor
    rw [bits_packed_sum, sum_alertKinds]
    simp only [AlertKind.num, field]
    omega

theorem packed_single {x : Nat} (h : x < 65536) : (packed [field x 0 16]).toNat = x := by
  rw [packed, BitVec.toNat_ofNat, List.sum_cons, List.sum_nil, field]
  omega

theorem age_shows (r : PosRec) (now : Time) : (packed [field (r.ageSeconds now) 0 16]).toNat =
    (r.sample.map (fun x => min 65535 ((now - x.accepted) / 1000))).getD 0 := by
  have hage : r.ageSeconds now = (r.sample.map (fun x => min 65535 ((now - x.accepted) / 1000))).getD 0 := by
    unfold PosRec.ageSeconds
    cases r.sample <;> rfl
  have hlt : (r.sample.map (fun x => min 65535 ((now - x.accepted) / 1000))).getD 0 < 65536 := by
    cases r.sample with
    | none => exact Nat.zero_lt_succ _
    | some x => exact Nat.lt_of_le_of_lt (Nat.min_le_left _ _) (by decide)
  rw [hage]
  exact packed_single hlt

/-- R186, 11.3: the eight words of a status entry. -/
theorem entryShows_words (s : State) (p : Pos) (now : Time) : entryShows s p now
    (fun i => (entryWords (s.posAt p) (s.lifted p) (s.limitIndex p).val now).getD i 0) := by
  unfold entryShows
  generalize s.posAt p = r
  have hraw := rawCode_lt r
  have hcold := toNat_le_one r.cold.isSome
  have hdrift := (BitVec.ofInt 8 r.drift).isLt
  have hleak := (BitVec.ofInt 16 (r.leak.getD 0)).isLt
  have hleaks := toNat_le_one r.leak.isSome
  obtain ⟨h0, h1, h2, h3, h4, h5, h6, h7, h8, h9, h10, h11, h12⟩ :=
    entryWord04_shows r (s.lifted p) (s.limitIndex p)
  obtain ⟨halerts, hrest⟩ := alertWord_shows r.alerts
  refine ⟨rfl, h0, h1, h2, h3, h4, h5, h6, h7, h8, h9, h10, h11, h12, ?_, ?_, ?_, ?_, rfl, ?_, ?_, ?_, ?_, ?_, halerts,
    hrest, age_shows r now⟩
  all_goals
    simp only [entryWords, List.getD_cons_succ, List.getD_cons_zero, signedBits_eq, flag_eq, bits_packed_sum, field,
      List.sum_cons, List.sum_nil]
    omega

/-! ### A candidate record and a limit set -/

theorem presence_lt (x : Temp) : x.presence < 4 := by cases x <;> simp [Temp.presence]

theorem presence_eq (x : Temp) : x.presence = (match x with | .absent => 0 | .invalid => 1 | .celsius _ => 2) := by
  cases x <;> rfl

theorem tempByte_eq (x : Temp) : x.code % 256 =
    (match x with | .absent => 255 | .invalid => 255 | .celsius v => (v + 50).toNat % 256) := by
  cases x <;> rfl

/-- R46, R50, 11.3: the fields of the last word of a candidate record and of its word 08. -/
theorem candidateWords_eq (e : Candidate) : candidateWords e =
    [e.id,
     packed [field (e.firstHeard / 1000) 0 16, field (e.lastHeard / 1000) 16 16],
     packed [field e.telegrams 0 8, field e.rolling 8 8, field e.still 16 8, flag e.persistent 24, flag e.stationary 25,
       flag e.claimed 26, flag e.answer.isSome 27, field ((e.answer.map (fun a => a.coil.val)).getD 0) 28 4],
     packed [field e.hits.a 0 8, field e.hits.b 8 8, field e.hits.c 16 8, field e.hits.d 24 8],
     packed [field e.sums.a 0 16, field e.sums.b 16 16],
     packed [field e.sums.c 0 16, field e.sums.d 16 16],
     packed [field e.code.toNat 0 10, field (laneNum e.strongest) 10 2, flag e.motion 12, field e.temp.presence 13 2,
       field e.temp.code 15 8, field ((e.answer.map (fun a => a.code.toNat)).getD 0) 23 4,
       field ((e.answer.map (fun a => a.lf.toNat)).getD 0) 27 4]] := by
  have hseconds (t : Time) (lo : Nat) : field (seconds16 t) lo 16 = field (t / 1000) lo 16 := by
    simp [field, seconds16]
  unfold candidateWords
  simp only [hseconds]
  cases e.answer <;> rfl

/-- R46, R50, 11.3: the seven words of a candidate record. -/
theorem candidateShows_words (e : Candidate) : candidateShows e (fun i => (candidateWords e).getD i 0) := by
  have hpersistent := toNat_le_one e.persistent
  have hstationary := toNat_le_one e.stationary
  have hclaimed := toNat_le_one e.claimed
  have hanswer := toNat_le_one e.answer.isSome
  have hmotion := toNat_le_one e.motion
  have hcoil : (e.answer.map (fun a => a.coil.val)).getD 0 < 16 := by
    cases e.answer with
    | none => decide
    | some a => exact Nat.lt_trans a.coil.isLt (by decide)
  have hcode : (e.answer.map (fun a => a.code.toNat)).getD 0 < 16 := by
    cases e.answer with
    | none => decide
    | some a => exact a.code.isLt
  have hlf : (e.answer.map (fun a => a.lf.toNat)).getD 0 < 16 := by
    cases e.answer with
    | none => decide
    | some a => exact a.lf.isLt
  have hlane : laneNum e.strongest < 4 := by cases e.strongest <;> decide
  have hpresence := presence_lt e.temp
  have hsample := e.code.isLt
  unfold candidateShows
  refine ⟨?_, ?_, ?_, ?_, ?_, ?_, ?_, ?_, ?_, ?_, ?_, fun l => ?_, ?_, ?_, ?_, ?_, ?_, ?_, ?_,
    Eq.trans ?_ (presence_eq e.temp), Eq.trans ?_ (tempByte_eq e.temp), ?_, ?_⟩
  all_goals
    simp only [candidateWords_eq, List.getD_cons_succ, List.getD_cons_zero, flag_eq, bits_packed_sum, field,
      List.sum_cons, List.sum_nil]
  case refine_12 => cases l <;> simp only [laneNum, Lanes.get] <;> omega
  all_goals omega

/-- R104, 11.3: the two words of a limit set. -/
theorem limitShows_words (l : LimitSet) : limitShows l ((limitWords l).getD 0 0) ((limitWords l).getD 1 0) := by
  unfold limitShows
  simp only [limitWords, List.getD_cons_succ, List.getD_cons_zero, bits_packed_sum, field, List.sum_cons, List.sum_nil]
  refine ⟨?_, ?_, ?_, ?_, ?_, ?_⟩ <;> omega

end Sys2Proof.Machine
end

section
/-! What the words of the limit mirror, of the header and of the detail list show (R104, R138, R186, R187; 11.3). -/

namespace Sys2Proof.Machine
open Sys2Proof.Claim

/-! ### The loaded flags -/

/-- The number whose binary digits, from the lowest up, are the flags. -/
def flagsNumber : List Bool → Nat
  | [] => 0
  | b :: bs => b.toNat + 2 * flagsNumber bs

theorem flagsNumber_digit (bs : List Bool) (i : Nat) : flagsNumber bs / 2 ^ i % 2 = (bs.getD i false).toNat := by
  induction bs generalizing i with
  | nil => simp [flagsNumber]
  | cons b bs ih =>
    have hb := toNat_le_one b
    cases i with
    | zero =>
      rw [flagsNumber, List.getD_cons_zero]
      omega
    | succ i =>
      rw [List.getD_cons_succ, ← ih i, Nat.pow_succ', ← Nat.div_div_eq_div_mul]
      have hhalf : flagsNumber (b :: bs) / 2 = flagsNumber bs := by
        rw [flagsNumber]
        omega
      rw [hhalf]

theorem flagsNumber_lt (bs : List Bool) : flagsNumber bs < 2 ^ bs.length := by
  induction bs with
  | nil => simp [flagsNumber]
  | cons b bs ih =>
    have hb := toNat_le_one b
    rw [flagsNumber, List.length_cons, pow_succ]
    omega

theorem sum_flags (ls : List LimitSet) (lo : Nat) : ((ls.zipIdx lo).map (fun x => flag x.1.loaded x.2)).sum =
    2 ^ lo * flagsNumber (ls.map LimitSet.loaded) := by
  induction ls generalizing lo with
  | nil => simp [flagsNumber]
  | cons l ls ih =>
    rw [List.zipIdx_cons, List.map_cons, List.sum_cons, ih, flag_eq, List.map_cons, flagsNumber, pow_succ]
    ring

/-- R104, 11.3: the loaded flags of the mirror. -/
theorem loadedFlags_shows (v : Vector LimitSet 16) :
    (∀ i : Fin 16, bits (loadedFlags v) i.val 1 = (v.get i).loaded.toNat) ∧ bits (loadedFlags v) 16 16 = 0 := by
  have hlt : flagsNumber (v.toList.map LimitSet.loaded) < 65536 := by
    have h := flagsNumber_lt (v.toList.map LimitSet.loaded)
    rwa [List.length_map, Vector.length_toList] at h
  have hword : (loadedFlags v).toNat = flagsNumber (v.toList.map LimitSet.loaded) := by
    rw [loadedFlags, packed, sum_flags, BitVec.toNat_ofNat, pow_zero, one_mul]
    omega
  refine ⟨fun i => ?_, ?_⟩
  · rw [bits, hword, pow_one, flagsNumber_digit]
    have hi : i.val < (v.toList.map LimitSet.loaded).length := by
      rw [List.length_map, Vector.length_toList]
      exact i.isLt
    rw [List.getD_eq_getElem _ _ hi, List.getElem_map, Vector.getElem_toList]
    rfl
  · rw [bits, hword]
    omega

/-! ### The header -/

theorem halves_shows (lo hi : Nat) : bits (halves lo hi) 0 16 = lo % 65536 ∧ bits (halves lo hi) 16 16 = hi % 65536 := by
  simp only [halves, bits_packed_sum, field, List.sum_cons, List.sum_nil]
  omega

theorem bytes_shows (a b c d : Nat) :
    let w := packed [field a 0 8, field b 8 8, field c 16 8, field d 24 8]
    bits w 0 8 = a % 256 ∧ bits w 8 8 = b % 256 ∧ bits w 16 8 = c % 256 ∧ bits w 24 8 = d % 256 := by
  simp only [bits_packed_sum, field, List.sum_cons, List.sum_nil]
  omega

/-- R154: the result word, with the count in its lower half and the bytes of tag and code above (DEDUCED, log 59). -/
theorem result_shows (r : CmdResult) :
    let w := packed [field r.count.toNat 0 16, field r.tag.toNat 16 8, field r.code.toNat 24 8]
    bits w 0 16 = r.count.toNat ∧ bits w 16 8 = r.tag.toNat ∧ bits w 24 8 = r.code.toNat ∧
      (packed [field r.outcome.code 0 4]).toNat = r.outcome.code := by
  have hcount := r.count.isLt
  have htag := r.tag.isLt
  have hcode := r.code.isLt
  have houtcome : r.outcome.code < 16 := by cases r.outcome <;> decide
  simp only [bits, packed, field, List.sum_cons, List.sum_nil, BitVec.toNat_ofNat]
  omega

theorem hold_eq (h : Hold) : h.code = (match h with | .released => 0 | .held => 1 | .overridden => 2) := by
  cases h <;> rfl

theorem hold_lt (h : Hold) : h.code < 4 := by cases h <;> decide

/-- R138, 11.3: the flags word of the header. -/
theorem flagsWord_shows (s : State) (q : Publication) :
    let w := s.flagsWord q
    bits w 0 1 = (q.page == .b).toNat ∧
      bits w 1 1 = (decide (s.setting .historyDepth ≤ s.setting .trendSpan)).toNat ∧
      bits w 2 2 = s.sweep.hold.code ∧ bits w 4 2 = s.sweep.deferredCount % 4 ∧ bits w 6 1 = s.sweep.deferredFlip.toNat ∧
      bits w 7 1 = s.buzzer.toNat ∧ bits w 8 1 = s.frozen.toNat ∧ bits w 9 1 = s.snoop.restart.toNat ∧
      bits w 10 1 = s.notices.lost.toNat ∧ bits w 11 1 = s.control.parkedLost.toNat ∧
      (∀ l : Lane, bits w (12 + laneNum l) 1 = (s.intake.lanes.get l).quiet.toNat) ∧
      bits w 16 8 = s.notices.completed.toNat ∧ bits w 24 4 = s.snoop.loaderIndex.toNat ∧
      bits w 28 4 = s.snoop.partialEntry.length % 8 := by
  intro w
  have hpage := toNat_le_one (q.page == .b)
  have hoff := toNat_le_one (decide (s.setting .historyDepth ≤ s.setting .trendSpan))
  have hhold := hold_lt s.sweep.hold
  have hflip := toNat_le_one s.sweep.deferredFlip
  have hbuzzer := toNat_le_one s.buzzer
  have hfrozen := toNat_le_one s.frozen
  have hrestart := toNat_le_one s.snoop.restart
  have hlost := toNat_le_one s.notices.lost
  have hparked := toNat_le_one s.control.parkedLost
  have hlane (l : Lane) := toNat_le_one (s.intake.lanes.get l).quiet
  have ha := hlane .a
  have hb := hlane .b
  have hc := hlane .c
  have hd := hlane .d
  have hcompleted := s.notices.completed.isLt
  have hindex := s.snoop.loaderIndex.isLt
  simp only [w, State.flagsWord, lanesInOrder, laneNum, List.map_cons, List.map_nil, List.cons_append, List.nil_append,
    flag_eq, bits_packed_sum, field, List.sum_cons, List.sum_nil]
  refine ⟨?_, ?_, ?_, ?_, ?_, ?_, ?_, ?_, ?_, ?_, fun l => ?_, ?_, ?_, ?_⟩
  case refine_11 => cases l <;> simp only <;> omega
  all_goals omega

theorem lastRefused_shows (a : Option (BitVec 24)) :
    let w := packed [field (match a with | some x => x.toNat | none => 0) 0 24, flag a.isSome 24]
    bits w 0 24 = (a.map BitVec.toNat).getD 0 ∧ bits w 24 8 = a.isSome.toNat := by
  cases a with
  | none => decide
  | some x =>
    have hx := x.isLt
    simp only [bits_packed_sum, flag_eq, field, List.sum_cons, List.sum_nil, Option.isSome_some, Bool.toNat_true,
      Option.map_some, Option.getD_some]
    omega

/-- R35, R58, R69: the lanes and the counts after the capture of the header. -/
def State.countsCaptured (s : State) : State :=
  { s with
    intake := { s.intake with
      lanes := .tabulate (fun l => (s.intake.lanes.get l).captured (s.masked l)), merged := 0 }
    trigger := { s.trigger with stale := 0 } }

/-- R138, R186, 11.3: the sixteen words of the header. -/
theorem headerShows_words (s : State) (q : Publication) :
    headerShows s q s.now (.tabulate (fun l => (s.countsCaptured.intake.lanes.get l).quiet))
      (fun i => (s.countsCaptured.headerWords q s.intake.lanes s.intake.merged s.trigger.stale).getD i 0) := by
  have hnumber := q.number.isLt
  have hstamp := q.stamp.isLt
  obtain ⟨hcolumn, hdepth, hspan, hperiod⟩ :=
    bytes_shows q.column (s.setting .historyDepth) (s.setting .trendSpan) (s.setting .sweepPeriod)
  obtain ⟨hcount, htag, hcode, houtcome⟩ := result_shows s.snoop.result
  obtain ⟨h0, h1, h2, h3, h4, h5, h6, h7, h8, h9, h10, h11, h12, h13⟩ := flagsWord_shows s.countsCaptured q
  obtain ⟨hrefused, hoffset⟩ := halves_shows s.path.refused (s.snoop.refusedOffset.getD 0xFFFF)
  obtain ⟨hlast, hlasts⟩ := lastRefused_shows s.path.lastRefused
  obtain ⟨hmerged, hstale⟩ := halves_shows s.intake.merged s.trigger.stale
  obtain ⟨hnum, hst⟩ := halves_shows q.number.toNat q.stamp.toNat
  obtain ⟨hskip, htime⟩ := halves_shows s.sweep.skipped (seconds16 s.now)
  have hlane (l : Lane) := halves_shows (s.intake.lanes.get l).good (s.intake.lanes.get l).bad
  refine ⟨hnum.trans (Nat.mod_eq_of_lt hnumber), hst.trans (Nat.mod_eq_of_lt hstamp), hcolumn, hdepth, hspan, hperiod,
    hskip, htime.trans (Nat.mod_mod _ _), h0, h1, h2.trans (hold_eq _), h3, h4, h5, h6, h7, h8, h9,
    fun l => (h10 l).trans ?_, h11, h12, h13, hcount, htag, hcode, hrefused, hoffset, hlast, hlasts, fun l => ?_, hmerged,
    hstale, houtcome, rfl, rfl, rfl⟩
  · cases l <;> rfl
  · cases l
    · exact hlane .a
    · exact hlane .b
    · exact hlane .c
    · exact hlane .d

/-! ### The detail list -/

theorem detailCount_shows (items : List DetailItem) :
    bits (detailCountWord items) 0 8 = min 14 items.length ∧
      bits (detailCountWord items) 8 24 = (decide (14 < items.length)).toNat := by
  have hword : detailCountWord items =
      packed [field (min 14 items.length) 0 8, flag (decide (14 < items.length)) 8] := by
    rw [Nat.min_comm]
    rfl
  have hmore := toNat_le_one (decide (14 < items.length))
  generalize decide (14 < items.length) = more at *
  rw [hword]
  simp only [bits_packed_sum, flag_eq, field, List.sum_cons, List.sum_nil]
  omega

/-- R187: the two words of a detail item. -/
theorem detailWords_shows (x : DetailItem) :
    let u := x.words.getD 0 0
    bits u 0 8 = x.position.val ∧ bits u 8 3 = x.kind.num ∧ bits u 11 5 = (x.level == .alarm).toNat ∧
      bits u 16 16 = x.stamp.toNat ∧ x.words.getD 1 0 = BitVec.ofInt 32 x.value := by
  intro u
  have hposition := x.position.isLt
  have hkind : x.kind.num < 8 := by cases x.kind <;> decide
  have hlevel := toNat_le_one (x.level == .alarm)
  have hstamp := x.stamp.isLt
  simp only [u, DetailItem.words, List.getD_cons_succ, List.getD_cons_zero, bits_packed_sum, flag_eq, field,
    List.sum_cons, List.sum_nil]
  refine ⟨?_, ?_, ?_, ?_, trivial⟩ <;> omega

/-! ### Blocks of a list -/

/-- The words of the entry `i`, where every entry has `n` words. -/
theorem getD_flatMap {α : Type} (f : α → List Word) {n : Nat} (hf : ∀ x, (f x).length = n) {xs : List α} {i : Nat} {x : α}
    (h : xs[i]? = some x) {j : Nat} (hj : j < n) : (xs.flatMap f).getD (n * i + j) 0 = (f x).getD j 0 := by
  induction xs generalizing i with
  | nil => cases h
  | cons y ys ih =>
    rw [List.flatMap_cons]
    cases i with
    | zero =>
      obtain rfl : y = x := by simpa using h
      rw [Nat.mul_zero, Nat.zero_add, List.getD_append _ _ _ _ (by rw [hf]; exact hj)]
    | succ i =>
      rw [List.getD_append_right _ _ _ _ (by rw [hf, Nat.mul_succ]; omega), hf, ← ih (by simpa using h)]
      congr 1
      rw [Nat.mul_succ]
      omega

theorem length_flatMap {α : Type} (f : α → List Word) {n : Nat} (hf : ∀ x, (f x).length = n) (xs : List α) :
    (xs.flatMap f).length = n * xs.length := by
  induction xs with
  | nil => rfl
  | cons y ys ih =>
    rw [List.flatMap_cons, List.length_append, hf, ih, List.length_cons, Nat.mul_succ, Nat.add_comm]

end Sys2Proof.Machine
end

section
/-! The capture of a group of a publication (R136, R168): the position, the candidate section, the limit mirror and the
header. -/

namespace Sys2Proof.Machine
open Sys2Proof.Claim

/-! ### A group joins the publication -/

theorem writesFrom_cons (o : Nat) (w : Word) (ws : List Word) :
    writesFrom o (w :: ws) = { offset := o, data := w } :: writesFrom (o + 4) ws := by
  simp only [writesFrom, List.zipIdx_cons, List.map_cons, List.cons.injEq, Nat.mul_zero, Nat.add_zero, true_and]
  refine List.ext_getElem (by simp) fun i hi hj => ?_
  simp only [List.getElem_map, List.getElem_zipIdx, KeptWrite.mk.injEq, and_true]
  omega

/-- R136: the next group is captured from the state as it stands. -/
theorem exec_groupCapture (dt : Nat) {q : Publication} {s : State} {o : Nat} (h : captureReady s q o) (hg : q.groups < 29) :
    exec (.groupCapture dt) s = .next ((s.elapse dt).captureGroup q) := by
  obtain ⟨hhup, hop, hpub, hkept, hlength, hnew⟩ := h
  have hroom : (s.elapse dt).roomForProducer = true := roomForProducer_iff.mpr ⟨admits_iff.mpr ⟨hhup, hop⟩, hlength⟩
  have hpub' : (s.elapse dt).sweep.publication = some q := hpub
  have hcapture : (q.kept.isEmpty && (s.elapse dt).roomForProducer && decide (q.groups < groupCount)) = true := by
    rw [hkept, hroom]
    exact decide_eq_true hg
  change Host.Outcome.next (s.elapse dt).captureNext = _
  unfold State.captureNext
  rw [hpub']
  exact congrArg Host.Outcome.next (if_pos hcapture)

/-- R136, R168: the state after a group whose first write is `w` and whose other writes are `ws`. -/
def State.groupAdded (s : State) (p : Publication) (o : Nat) (w : Word) (ws : List KeptWrite) : State :=
  { s with
    sweep := { s.sweep with publication := some { p with groups := p.groups + 1, kept := ws } }
    path := { s.path with queue := s.path.queue ++ [{ access := .write w, offset := o, origin := .publish }] } }

theorem addGroup_cons {s : State} (p : Publication) {o : Nat} (w : Word) (ws : List KeptWrite)
    (hnew : pendingWrite s.path.queue o = none) :
    s.addGroup p ({ offset := o, data := w } :: ws) = s.groupAdded p o w ws :=
  addWrite_new (s := { s with sweep := { s.sweep with publication := some { p with groups := p.groups + 1, kept := ws } } })
    w .publish hnew

theorem posAt_groupAdded (s : State) (p : Publication) (o : Nat) (w : Word) (ws : List KeptWrite) (x : Pos) :
    (s.groupAdded p o w ws).posAt x = s.posAt x := rfl

/-! ### A position -/

theorem capturePosition_eq {s : State} (q : Publication) (p : Pos)
    (hnew : pendingWrite s.path.queue (cellOffset q.column p) = none) :
    s.capturePosition q p = (s.modPos p (fun r => { r with missed := 0 })).groupAdded
      { q with items := q.items ++ detailItems p (s.posAt p).alerts } (cellOffset q.column p)
      ((cellWords (s.posAt p) q.stamp).getD 0 0)
      (writesFrom (cellOffset q.column p + 4) [(cellWords (s.posAt p) q.stamp).getD 1 0] ++
        writesFrom (q.page.base + 0x40 + 0x20 * p.val) (entryWords (s.posAt p) (s.lifted p) (s.limitIndex p).val s.now)) := by
  have hcell : cellWords (s.posAt p) q.stamp =
      [(cellWords (s.posAt p) q.stamp).getD 0 0, (cellWords (s.posAt p) q.stamp).getD 1 0] := rfl
  unfold State.capturePosition
  dsimp only
  rw [hcell, writesFrom_cons, List.cons_append]
  exact addGroup_cons _ _ _ hnew

/-- R137, R186, R187: what the capture of a position leaves. -/
theorem capture_position (dt : Nat) (q : Publication) (p : Pos) (s : State) (h : captureReady s q (cellOffset q.column p))
    (hg : q.groups = p.val) :
    ∃ t r w, exec (.groupCapture dt) s = .next t ∧ t.sweep.publication = some r ∧ groupTaken q r ∧
      r.kept.map KeptWrite.offset =
        [cellOffset q.column p + 4] ++ (List.range 8).map (fun i => q.page.base + 0x40 + 0x20 * p.val + 4 * i) ∧
      t.path.queue = s.path.queue ++
        [{ access := .write w, offset := cellOffset q.column p, origin := .publish }] ∧
      cellShows (s.posAt p) q.stamp w ((r.kept.map KeptWrite.data).getD 0 0) ∧
      entryShows s p (s.now + dt) (fun i => (r.kept.map KeptWrite.data).getD (i + 1) 0) ∧
      r.items = q.items ++ (alertKinds.filter (fun k => (s.alertAt p k).standing)).map (fun k =>
        { position := p, kind := k, level := (s.alertAt p k).level, stamp := (s.alertAt p k).stamp,
          value := (s.alertAt p k).value }) ∧
      t.posAt p = { s.posAt p with missed := 0 } ∧ (∀ x, x ≠ p → t.posAt x = s.posAt x) ∧
      { t with now := s.now, positions := s.positions, path := s.path, sweep := s.sweep } = s := by
  have hlt : q.groups < 26 := hg ▸ p.isLt
  have hexec := exec_groupCapture dt h (Nat.lt_trans hlt (by decide))
  have hcapture : (s.elapse dt).captureGroup q = (s.elapse dt).capturePosition q p := by
    unfold State.captureGroup
    rw [dif_pos hlt]
    exact congrArg _ (Fin.ext hg)
  obtain ⟨_, _, _, _, _, hnew⟩ := h
  rw [hcapture, capturePosition_eq (s := s.elapse dt) q p hnew] at hexec
  refine ⟨_, _, _, hexec, rfl, ⟨rfl, rfl, rfl, rfl, rfl⟩, ?_, rfl, ?_, ?_, rfl,
    (posAt_groupAdded ..).trans (posAt_modPos_same ..),
    fun x hx => (posAt_groupAdded ..).trans (posAt_modPos_other _ _ _ _ hx), rfl⟩
  · dsimp only
    rw [List.map_append, writesFrom_offset, writesFrom_offset]
    rfl
  · dsimp only
    rw [List.map_append, writesFrom_data, writesFrom_data]
    exact cellShows_words _ _
  · dsimp only
    rw [List.map_append, writesFrom_data, writesFrom_data]
    exact entryShows_words s p (s.now + dt)

/-! ### The candidate section and the limit mirror -/

theorem candidateShows_congr {e : Candidate} {v w : Nat → Word} (h : ∀ j, j < 7 → w j = v j) (hv : candidateShows e v) :
    candidateShows e w := by
  unfold candidateShows at hv ⊢
  rwa [h 0 (by decide), h 1 (by decide), h 2 (by decide), h 3 (by decide), h 4 (by decide), h 5 (by decide),
    h 6 (by decide)]

/-- R46, R50: what the capture of the candidate section leaves. -/
theorem capture_candidates (dt : Nat) (q : Publication) (s : State) (h : captureReady s q (q.page.base + 0x380))
    (hg : q.groups = 26) :
    ∃ t r w, exec (.groupCapture dt) s = .next t ∧ t.sweep.publication = some r ∧ groupTaken q r ∧
      t.path.queue = s.path.queue ++ [{ access := .write w, offset := q.page.base + 0x380, origin := .publish }] ∧
      w = BitVec.ofNat 32 s.candidates.length ∧
      r.kept.map KeptWrite.offset =
        (List.range (7 * s.candidates.length)).map (fun i => q.page.base + 0x384 + 4 * i) ∧
      (∀ i, i < s.candidates.length → ∀ e, s.candidates[i]? = some e →
        candidateShows e (fun j => (r.kept.map KeptWrite.data).getD (7 * i + j) 0)) ∧
      { t with now := s.now, path := s.path, sweep := s.sweep } = s := by
  have hexec := exec_groupCapture dt h (by omega)
  have hcapture : (s.elapse dt).captureGroup q = (s.elapse dt).captureCandidates q := by
    unfold State.captureGroup
    rw [dif_neg (by omega), if_pos hg]
  obtain ⟨_, _, _, _, _, hnew⟩ := h
  rw [hcapture, State.captureCandidates, writesFrom_cons, addGroup_cons (s := s.elapse dt) _ _ _ hnew] at hexec
  have hseven (e : Candidate) : (candidateWords e).length = 7 := rfl
  refine ⟨_, _, _, hexec, rfl, ⟨rfl, rfl, rfl, rfl, rfl⟩, rfl, rfl, ?_, fun i hi e he => ?_, rfl⟩
  · dsimp only
    rw [writesFrom_offset, length_flatMap candidateWords hseven]
    rfl
  · dsimp only
    rw [writesFrom_data]
    exact candidateShows_congr (fun j hj => getD_flatMap candidateWords hseven he hj) (candidateShows_words e)

/-- R104: what the capture of the limit mirror leaves. -/
theorem capture_limits (dt : Nat) (q : Publication) (s : State) (h : captureReady s q (q.page.base + 0x704))
    (hg : q.groups = 27) :
    ∃ t r w, exec (.groupCapture dt) s = .next t ∧ t.sweep.publication = some r ∧ groupTaken q r ∧
      t.path.queue = s.path.queue ++ [{ access := .write w, offset := q.page.base + 0x704, origin := .publish }] ∧
      (∀ i : Fin 16, bits w i.val 1 = (s.eval.limits.get i).loaded.toNat) ∧ bits w 16 16 = 0 ∧
      r.kept.map KeptWrite.offset = (List.range 32).map (fun i => q.page.base + 0x708 + 4 * i) ∧
      (∀ i : Fin 16, limitShows (s.eval.limits.get i) ((r.kept.map KeptWrite.data).getD (2 * i.val) 0)
        ((r.kept.map KeptWrite.data).getD (2 * i.val + 1) 0)) ∧
      { t with now := s.now, path := s.path, sweep := s.sweep } = s := by
  have hexec := exec_groupCapture dt h (by omega)
  have hcapture : (s.elapse dt).captureGroup q = (s.elapse dt).captureLimits q := by
    unfold State.captureGroup
    rw [dif_neg (by omega), if_neg (by omega), if_pos hg]
  obtain ⟨_, _, _, _, _, hnew⟩ := h
  rw [hcapture, State.captureLimits, writesFrom_cons, addGroup_cons (s := s.elapse dt) _ _ _ hnew] at hexec
  have htwo (l : LimitSet) : (limitWords l).length = 2 := rfl
  obtain ⟨hloaded, hzero⟩ := loadedFlags_shows s.eval.limits
  refine ⟨_, _, _, hexec, rfl, ⟨rfl, rfl, rfl, rfl, rfl⟩, rfl, hloaded, hzero, ?_, fun i => ?_, rfl⟩
  · dsimp only
    rw [writesFrom_offset, length_flatMap limitWords htwo, Vector.length_toList]
  · have hget : s.eval.limits.toList[i.val]? = some (s.eval.limits.get i) := by
      rw [List.getElem?_eq_getElem (by rw [Vector.length_toList]; exact i.isLt), Vector.getElem_toList]
      rfl
    have hfirst := getD_flatMap limitWords htwo hget (j := 0) (by decide)
    have hsecond := getD_flatMap limitWords htwo hget (j := 1) (by decide)
    dsimp only
    rw [writesFrom_data]
    exact hfirst ▸ hsecond ▸ limitShows_words _

/-! ### The header -/

/-- R160, R183: a notice keeps what is pending below the notice ring. -/
theorem pendingWrite_raise (s : State) (n : Notice) {o : Nat} (ho : o < 0x2000) :
    pendingWrite (s.raise n).path.queue o = pendingWrite s.path.queue o := by
  have hfold (ws : List KeptWrite) (hws : ∀ w ∈ ws, o ≠ w.offset) (u : State) :
      pendingWrite (ws.foldl (fun t w => t.addWrite w.offset w.data .notice) u).path.queue o =
        pendingWrite u.path.queue o := by
    induction ws generalizing u with
    | nil => rfl
    | cons w ws ih =>
      obtain ⟨hw, hrest⟩ := List.forall_mem_cons.mp hws
      rw [List.foldl_cons, ih hrest]
      exact (pendingWrite_queueWrite _ _ _ _ _).trans (if_neg hw)
  have hplace : pendingWrite (s.placeNotice n).path.queue o = pendingWrite s.path.queue o := by
    by_cases hlost : s.losesNotice n
    · rw [placeNotice_lost hlost]
    · rw [placeNotice_ring hlost]
      refine hfold _ (fun w hw => ?_) s
      rw [noticeWrites_eq] at hw
      obtain ⟨k, _, rfl⟩ := List.mem_map.mp hw
      dsimp only
      omega
  unfold State.raise
  split
  case h_2 => exact hplace
  all_goals rfl

/-- R35, R160: the notices of quiet lanes touch the notice unit, the memory path and the parked list. -/
theorem announceQuiet_shape (ls : List Lane) (s : State) :
    ∃ x y z, s.announceQuiet ls = { s with notices := x, path := y, control := z } ∧
      ∀ o, o < 0x2000 → pendingWrite y.queue o = pendingWrite s.path.queue o := by
  induction ls generalizing s with
  | nil => exact ⟨_, _, _, rfl, fun _ _ => rfl⟩
  | cons l ls ih =>
    have hnotify : ∃ n, s.notify .laneQuiet none 0 0 (BitVec.ofNat 32 (laneNum l)) = s.raise n := ⟨_, rfl⟩
    obtain ⟨n, hn⟩ := hnotify
    have hstep : s.announceQuiet (l :: ls) = (s.raise n).announceQuiet ls :=
      congrArg (fun u : State => u.announceQuiet ls) hn
    obtain ⟨x, y, z, heq, hpending⟩ := ih (s.raise n)
    refine ⟨x, y, z, ?_, fun o ho => (hpending o ho).trans (pendingWrite_raise s n ho)⟩
    rw [hstep, heq, raise_shape]

theorem captured_eq (r : LaneRec) (masked : Bool) : r.captured masked = laneCaptured r masked := by
  unfold LaneRec.captured laneCaptured LaneRec.turnsQuiet satAdd
  cases masked with
  | true => rfl
  | false =>
    by_cases hgood : r.good = 0
    · by_cases hcount : 3 ≤ r.quietCount + 1
      · have hlimit : Config.quietLimit ≤ r.quietCount + 1 := hcount
        cases r.quiet <;> simp [hgood, hcount, hlimit]
        all_goals rfl
      · have hlimit : ¬Config.quietLimit ≤ r.quietCount + 1 := hcount
        simp [hgood, hcount, hlimit]
        rfl
    · simp [hgood]

theorem headerShows_congr {s : State} {q : Publication} {now : Time} {quiet : Lanes Bool} {v w : Nat → Word}
    (h : ∀ j, j < 16 → w j = v j) (hv : headerShows s q now quiet v) : headerShows s q now quiet w := by
  have hlane (l : Lane) : w (7 + laneNum l) = v (7 + laneNum l) := h _ (by cases l <;> decide)
  unfold headerShows at hv ⊢
  simp only [hlane]
  rwa [h 0 (by decide), h 1 (by decide), h 2 (by decide), h 3 (by decide), h 4 (by decide), h 5 (by decide),
    h 6 (by decide), h 11 (by decide), h 12 (by decide), h 13 (by decide), h 14 (by decide), h 15 (by decide)]

theorem headerShows_elapse (dt : Nat) {s : State} {q : Publication} {now : Time} {quiet : Lanes Bool} {w : Nat → Word}
    (h : headerShows (s.elapse dt) q now quiet w) : headerShows s q now quiet w := h

/-- R187: the words of the detail list. -/
def detailList (items : List DetailItem) : List Word :=
  detailCountWord items :: (items.take 14).flatMap DetailItem.words

theorem length_detailList (items : List DetailItem) : (detailList items).length = 1 + 2 * min 14 items.length := by
  rw [detailList, List.length_cons, length_flatMap DetailItem.words (n := 2) (fun _ => rfl), List.length_take,
    Nat.add_comm]

/-- R187: the detail list, after the fifteen later words of the header. -/
theorem detailList_shows (items : List DetailItem) {ws : List Word} (hws : ws.length = 15) :
    let v := ws ++ detailList items
    bits (v.getD 15 0) 0 8 = min 14 items.length ∧ bits (v.getD 15 0) 8 24 = (decide (14 < items.length)).toNat ∧
      ∀ i, i < min 14 items.length → ∀ x, items[i]? = some x →
        let u := v.getD (16 + 2 * i) 0
        bits u 0 8 = x.position.val ∧ bits u 8 3 = x.kind.num ∧ bits u 11 5 = (x.level == .alarm).toNat ∧
          bits u 16 16 = x.stamp.toNat ∧ v.getD (17 + 2 * i) 0 = BitVec.ofInt 32 x.value := by
  intro v
  have hget (k : Nat) : v.getD (15 + k) 0 = (detailList items).getD k 0 := by
    rw [List.getD_append_right _ _ _ _ (by omega), hws, Nat.add_sub_cancel_left]
  obtain ⟨hcount, hmore⟩ := detailCount_shows items
  rw [show v.getD 15 0 = detailCountWord items from hget 0]
  refine ⟨hcount, hmore, fun i hi x hx => ?_⟩
  have htake : (items.take 14)[i]? = some x := by
    rw [List.getElem?_take_of_lt (by omega)]
    exact hx
  have hitem (j : Nat) (hj : j < 2) : v.getD (16 + j + 2 * i) 0 = x.words.getD j 0 := by
    have hblock := getD_flatMap DetailItem.words (n := 2) (fun _ => rfl) htake hj
    have hindex : 16 + j + 2 * i = 15 + (2 * i + j + 1) := by omega
    rw [hindex, hget, detailList, List.getD_cons_succ]
    exact hblock
  have hfirst : v.getD (16 + 2 * i) 0 = x.words.getD 0 0 := hitem 0 (by decide)
  have hsecond : v.getD (17 + 2 * i) 0 = x.words.getD 1 0 := hitem 1 (by decide)
  rw [hfirst, hsecond]
  exact detailWords_shows x

/-- R138: the later words of the header. -/
def State.laterHeader (s : State) (q : Publication) : List Word :=
  (s.countsCaptured.headerWords q s.intake.lanes s.intake.merged s.trigger.stale).tail

theorem captureHeader_eq {s : State} (q : Publication) (hnew : pendingWrite s.path.queue q.page.base = none) :
    ∃ ls, s.captureHeader q = (s.countsCaptured.groupAdded q q.page.base (halves q.number.toNat q.stamp.toNat)
      (writesFrom (q.page.base + 4) (s.laterHeader q) ++ writesFrom (q.page.base + 0x788)
        (detailList q.items))).announceQuiet ls := by
  have hwords : s.countsCaptured.headerWords q s.intake.lanes s.intake.merged s.trigger.stale =
      halves q.number.toNat q.stamp.toNat :: s.laterHeader q := rfl
  have hgroup := addGroup_cons (s := s.countsCaptured) q (halves q.number.toNat q.stamp.toNat)
    (writesFrom (q.page.base + 4) (s.laterHeader q) ++ writesFrom (q.page.base + 0x788) (detailList q.items)) hnew
  rw [← List.cons_append, ← writesFrom_cons, ← hwords] at hgroup
  exact ⟨_, congrArg (fun u : State => u.announceQuiet _) hgroup⟩

/-- R35, R138, R186, R187: what the capture of the header leaves. -/
theorem capture_header (dt : Nat) (q : Publication) (s : State) (h : captureReady s q q.page.base) (hg : q.groups = 28) :
    ∃ t r w, exec (.groupCapture dt) s = .next t ∧ t.sweep.publication = some r ∧ groupTaken q r ∧
      pendingWrite t.path.queue q.page.base = some w ∧
      r.kept.map KeptWrite.offset = (List.range 15).map (fun i => q.page.base + 4 + 4 * i) ++
        (List.range (1 + 2 * min 14 q.items.length)).map (fun i => q.page.base + 0x788 + 4 * i) ∧
      headerShows s q (s.now + dt) (.tabulate (fun l => (t.intake.lanes.get l).quiet))
        (fun i => (w :: r.kept.map KeptWrite.data).getD i 0) ∧
      bits ((r.kept.map KeptWrite.data).getD 15 0) 0 8 = min 14 q.items.length ∧
      bits ((r.kept.map KeptWrite.data).getD 15 0) 8 24 = (decide (14 < q.items.length)).toNat ∧
      (∀ i, i < min 14 q.items.length → ∀ x, q.items[i]? = some x →
        let u := (r.kept.map KeptWrite.data).getD (16 + 2 * i) 0
        bits u 0 8 = x.position.val ∧ bits u 8 3 = x.kind.num ∧ bits u 11 5 = (x.level == .alarm).toNat ∧
          bits u 16 16 = x.stamp.toNat ∧ (r.kept.map KeptWrite.data).getD (17 + 2 * i) 0 = BitVec.ofInt 32 x.value) ∧
      (∀ l, t.intake.lanes.get l = laneCaptured (s.intake.lanes.get l) (s.masked l)) ∧ t.intake.merged = 0 ∧
      t.intake.recent = s.intake.recent ∧ t.trigger = { s.trigger with stale := 0 } ∧ t.positions = s.positions ∧
      t.candidates = s.candidates ∧ t.mem = s.mem ∧ t.snoop = s.snoop ∧ t.eval = s.eval ∧ t.pending = s.pending := by
  have hexec := exec_groupCapture dt h (by omega)
  have hcapture : (s.elapse dt).captureGroup q = (s.elapse dt).captureHeader q := by
    unfold State.captureGroup
    rw [dif_neg (by omega), if_neg (by omega), if_neg (by omega), if_pos hg]
  obtain ⟨_, _, _, _, _, hnew⟩ := h
  obtain ⟨ls, hheader⟩ := captureHeader_eq (s := s.elapse dt) q hnew
  obtain ⟨x, y, z, hquiet, hpending⟩ := announceQuiet_shape ls ((s.elapse dt).countsCaptured.groupAdded q q.page.base
    (halves q.number.toNat q.stamp.toNat)
    (writesFrom (q.page.base + 4) ((s.elapse dt).laterHeader q) ++ writesFrom (q.page.base + 0x788) (detailList q.items)))
  rw [hcapture, hheader, hquiet] at hexec
  have hdata : (writesFrom (q.page.base + 4) ((s.elapse dt).laterHeader q) ++
      writesFrom (q.page.base + 0x788) (detailList q.items)).map KeptWrite.data =
      (s.elapse dt).laterHeader q ++ detailList q.items := by
    rw [List.map_append, writesFrom_data, writesFrom_data]
  have hbase : q.page.base < 0x2000 := by cases q.page <;> decide
  obtain ⟨hcount, hmore, hitems⟩ := detailList_shows q.items (ws := (s.elapse dt).laterHeader q) rfl
  rw [← hdata] at hcount hmore hitems
  refine ⟨_, _, halves q.number.toNat q.stamp.toNat, hexec, rfl, ⟨rfl, rfl, rfl, rfl, rfl⟩, ?_, ?_, ?_, hcount, hmore, hitems,
    fun l => ?_, rfl, rfl, rfl, rfl, rfl, rfl, rfl, rfl, rfl⟩
  · refine (hpending _ hbase).trans ((pendingWrite_append _ _ _).trans ?_)
    rw [show pendingWrite (s.elapse dt).countsCaptured.path.queue q.page.base = none from hnew, Option.none_or]
    exact if_pos rfl
  · dsimp only
    rw [List.map_append, writesFrom_offset, writesFrom_offset, length_detailList]
    rfl
  · refine headerShows_congr (fun j hj => ?_) (headerShows_elapse dt (headerShows_words (s.elapse dt) q))
    dsimp only
    rw [hdata, ← List.cons_append]
    exact List.getD_append _ _ _ _ hj
  · exact Eq.trans (by cases l <;> rfl) (captured_eq _ _)

/-- Settles O28: one capture each for the position, the candidate section, the limit mirror and the header. -/
theorem positionGroupIsCaptured : Obligations.PositionGroupIsCaptured :=
  ⟨capture_position, capture_candidates, capture_limits, capture_header⟩

end Sys2Proof.Machine
end

section
/-! The flip attempt and the trend reads (R139, R140, R145, R146). -/

namespace Sys2Proof.Machine
open Sys2Proof.Claim

/-! ### Trend reads join the queue (R145, R168) -/

/-- R145: the trend read of an offset. -/
def trendRead (o : Nat) : QEntry := { access := .read, offset := o, origin := .trend }

/-- R145: the state with a trend list whose reads are queued or kept. -/
def State.trendOffered (s : State) (trend : List TrendRead) (reads : List QEntry) (kept : List Nat) : State :=
  { s with
    sweep := { s.sweep with trend := trend, keptReads := kept }
    path := { s.path with queue := s.path.queue ++ reads } }

theorem pendingWrite_trendReads (os : List Nat) (o : Nat) : pendingWrite (os.map trendRead) o = none := by
  induction os with
  | nil => rfl
  | cons x os ih => exact ih

section
variable {s : State} {o : Nat}

/-- R145, R168: a read that finds no room is kept. -/
theorem offerTrend_full (hnew : pendingWrite s.path.queue o = none) (hfull : s.path.queue.length = 40) :
    s.offerTrend o = s.trendOffered s.sweep.trend [] (s.sweep.keptReads ++ [o]) := by
  have hroom : s.roomForProducer = false :=
    Bool.eq_false_of_not_eq_true fun h => absurd (roomForProducer_iff.mp h).2 (by omega)
  unfold State.offerTrend State.trendOffered
  rw [hnew, hroom, Bool.and_false, List.append_nil]
  rfl

/-- R145, R168: a read joins the tail where no read before it is kept. -/
theorem offerTrend_room (hnew : pendingWrite s.path.queue o = none) (hkept : s.sweep.keptReads = [])
    (hadmits : s.admits = true) (hlen : s.path.queue.length ≤ 39) :
    s.offerTrend o = s.trendOffered s.sweep.trend [trendRead o] s.sweep.keptReads := by
  have hroom : (s.sweep.keptReads.isEmpty && s.roomForProducer) = true := by
    rw [hkept, roomForProducer_iff.mpr ⟨hadmits, hlen⟩]
    rfl
  unfold State.offerTrend
  rw [hnew]
  exact if_pos hroom

end

/-- R145, R168: reads at cells that no write is pending for join the queue while more than 8 places are free; the rest are
kept. -/
theorem foldl_offerTrend (os : List Nat) {s : State} (hadmits : s.admits = true)
    (hnew : ∀ o ∈ os, pendingWrite s.path.queue o = none) (hlen : s.path.queue.length ≤ 40)
    (hkept : s.sweep.keptReads = [] ∨ s.path.queue.length = 40) :
    os.foldl State.offerTrend s = s.trendOffered s.sweep.trend ((os.take (40 - s.path.queue.length)).map trendRead)
      (s.sweep.keptReads ++ os.drop (40 - s.path.queue.length)) := by
  induction os generalizing s with
  | nil => simp [State.trendOffered]
  | cons o os ih =>
    obtain ⟨hone, hrest⟩ := List.forall_mem_cons.mp hnew
    rw [List.foldl_cons]
    by_cases hfull : s.path.queue.length = 40
    · have hqueue : (s.trendOffered s.sweep.trend [] (s.sweep.keptReads ++ [o])).path.queue = s.path.queue :=
        List.append_nil _
      have hind := ih (s := s.trendOffered s.sweep.trend [] (s.sweep.keptReads ++ [o])) hadmits
        (by rw [hqueue]; exact hrest) (by rw [hqueue]; exact hlen) (.inr (by rw [hqueue]; exact hfull))
      rw [offerTrend_full hone hfull, hind, hqueue, hfull]
      simp [State.trendOffered]
    · have hnone : s.sweep.keptReads = [] := hkept.resolve_right hfull
      have hqueue : (s.trendOffered s.sweep.trend [trendRead o] s.sweep.keptReads).path.queue =
          s.path.queue ++ [trendRead o] := rfl
      have hlater : (s.path.queue ++ [trendRead o]).length = s.path.queue.length + 1 := by simp
      have hind := ih (s := s.trendOffered s.sweep.trend [trendRead o] s.sweep.keptReads) hadmits
        (fun x hx => by rw [hqueue, pendingWrite_append, hrest x hx]; exact pendingWrite_trendReads [o] x)
        (by rw [hqueue, hlater]; omega) (.inl hnone)
      have hcount : 40 - s.path.queue.length = 40 - (s.path.queue.length + 1) + 1 := by omega
      rw [offerTrend_room hone hnone hadmits (by omega), hind, hqueue, hlater, hcount]
      simp [State.trendOffered]

/-- R145: the positions that get a trend read: the BOUND and SUSPECT ones, with K below D and K + 1 columns written. -/
def State.trendPositions (s : State) : List Pos :=
  if s.setting .trendSpan < s.setting .historyDepth ∧ s.setting .trendSpan + 1 ≤ s.sweep.written then
    positionsInOrder.filter (fun p => (s.posAt p).state.evaluated) else []

/-- R145: the column K before the head. -/
def State.trendColumn (s : State) : Nat := columnOfAge s.sweep.head (s.setting .historyDepth) (s.setting .trendSpan)

/-- R145: the trend list of the positions. -/
def trendList (column : Nat) (ps : List Pos) : List TrendRead :=
  ps.map (fun p => { position := p, column := column, word0 := none, word1 := none })

/-- R145: the offsets of the cells of the positions. -/
def trendCells (column : Nat) (ps : List Pos) : List Nat :=
  ps.flatMap (fun p => [cellOffset column p, cellOffset column p + 4])

theorem trendCells_ge {column : Nat} {ps : List Pos} {o : Nat} (h : o ∈ trendCells column ps) : 0x4000 ≤ o := by
  obtain ⟨p, -, ho⟩ := List.mem_flatMap.mp h
  simp only [cellOffset, columnBase, List.mem_cons, List.not_mem_nil, or_false] at ho
  omega

/-- R145: the trend reads of a state that has none, with no write pending for the history. -/
theorem setUpTrend_eq {s : State} (hadmits : s.admits = true)
    (hnew : ∀ o, 0x4000 ≤ o → pendingWrite s.path.queue o = none) (hlen : s.path.queue.length ≤ 40)
    (hkept : s.sweep.keptReads = []) (htrend : s.sweep.trend = []) :
    s.setUpTrend = s.trendOffered (trendList s.trendColumn s.trendPositions)
      (((trendCells s.trendColumn s.trendPositions).take (40 - s.path.queue.length)).map trendRead)
      ((trendCells s.trendColumn s.trendPositions).drop (40 - s.path.queue.length)) := by
  by_cases hset : s.setting .trendSpan < s.setting .historyDepth ∧ s.setting .trendSpan + 1 ≤ s.sweep.written
  · have hfold := foldl_offerTrend (trendCells s.trendColumn s.trendPositions)
      (s := s.trendOffered (trendList s.trendColumn s.trendPositions) [] s.sweep.keptReads) hadmits
      (fun o ho => (pendingWrite_append _ _ _).trans (by rw [hnew o (trendCells_ge ho)]; rfl))
      ((congrArg List.length (List.append_nil s.path.queue)).trans_le hlen) (.inl hkept)
    have hpositions : s.trendPositions = positionsInOrder.filter (fun p => (s.posAt p).state.evaluated) := if_pos hset
    have hstart : s.setUpTrend = (trendCells s.trendColumn s.trendPositions).foldl State.offerTrend
        (s.trendOffered (trendList s.trendColumn s.trendPositions) [] s.sweep.keptReads) := by
      rw [State.setUpTrend, if_pos hset, hpositions, State.trendOffered, List.append_nil]
      rfl
    rw [hstart, hfold]
    simp [State.trendOffered, hkept]
  · have hpositions : s.trendPositions = [] := if_neg hset
    rw [State.setUpTrend, if_neg hset, hpositions, trendCells, trendList]
    simp only [State.trendOffered, List.map_nil, List.flatMap_nil, List.take_nil, List.drop_nil, List.append_nil]
    rw [← hkept, ← htrend]

end Sys2Proof.Machine
end

section
/-! The completion of the last write of a publication makes the flip attempt (R139, R140, R145). -/

namespace Sys2Proof.Machine
open Sys2Proof.Claim

/-! ### The attempt and its trend reads -/

/-- R139: what the attempt has left when the trend reads are set up, with the entries `pre` in the queue. -/
structure AttemptEnds (s v : State) (b : Issued) (d : Word) (q : Publication) (pre : List QEntry) : Prop where
  made : attemptMade s v b d q
  queue : v.path.queue = pre
  trend : v.sweep.trend = []
  kept : v.sweep.keptReads = []
  admits : v.admits = true
  snoop : v.snoop = s.snoop

section
variable {s v : State} {b : Issued} {d : Word} {q : Publication} {pre : List QEntry}

theorem AttemptEnds.setting (h : AttemptEnds s v b d q pre) (w : SettingWord) : v.setting w = s.setting w :=
  congrArg (fun x : Snoop => bits (x.settings.get w.index) 0 16) h.snoop

theorem evaluated_eq (x : BindState) : x.evaluated = (x == .bound || x == .suspect) := by cases x <;> rfl

/-- R145: the positions of the trend list, by the state before the attempt. -/
theorem AttemptEnds.trendPositions (h : AttemptEnds s v b d q pre) (hr : q.restarted = false) :
    v.trendPositions = if q.restarted = false ∧ s.setting .trendSpan < s.setting .historyDepth ∧
        s.setting .trendSpan + 1 ≤ min (s.setting .historyDepth) (s.sweep.written + 1)
      then positionsInOrder.filter (fun p => (s.posAt p).state == .bound || (s.posAt p).state == .suspect) else [] := by
  obtain ⟨_, _, hwritten, _, hbindings, _⟩ := h.made
  rw [if_neg (by rw [hr]; decide)] at hwritten
  have hfilter : positionsInOrder.filter (fun p => (v.posAt p).state.evaluated) =
      positionsInOrder.filter (fun p => (s.posAt p).state == .bound || (s.posAt p).state == .suspect) := by
    refine List.filter_congr fun p _ => ?_
    obtain ⟨hstate, _, _⟩ := hbindings p
    rw [hstate, evaluated_eq]
  unfold State.trendPositions
  rw [h.setting, h.setting, hwritten, hfilter]
  simp only [hr, true_and]

/-- R145: the column of the trend reads, where there are any. -/
theorem AttemptEnds.trendColumn (h : AttemptEnds s v b d q pre) (hr : q.restarted = false)
    (hk : s.setting .trendSpan < s.setting .historyDepth) : v.trendColumn =
      (q.column + s.setting .historyDepth - s.setting .trendSpan) % s.setting .historyDepth := by
  obtain ⟨_, hhead, _⟩ := h.made
  rw [if_neg (by rw [hr]; decide)] at hhead
  rw [State.trendColumn, h.setting, h.setting, hhead, columnOfAge, Nat.mod_eq_of_lt hk]

theorem map_offset_trendRead (os : List Nat) : (os.map trendRead).map QEntry.offset = os := by
  rw [List.map_map]
  exact List.map_id os

/-- R145, R168: what the offer of the cells shows of the queue and of the kept reads. -/
theorem trendSetUp_of_offered {trend : List TrendRead} {cells : List Nat} (hpre : v.path.queue = pre) (hlen : pre.length ≤ 40)
    (h : let live := if q.restarted = false ∧ s.setting .trendSpan < s.setting .historyDepth ∧
          s.setting .trendSpan + 1 ≤ min (s.setting .historyDepth) (s.sweep.written + 1)
        then positionsInOrder.filter (fun p => (s.posAt p).state == .bound || (s.posAt p).state == .suspect) else []
      let column := (q.column + s.setting .historyDepth - s.setting .trendSpan) % s.setting .historyDepth
      trend = trendList column live ∧ cells = trendCells column live) :
    trendSetUp s (v.trendOffered trend ((cells.take (40 - pre.length)).map trendRead) (cells.drop (40 - pre.length))) q
      ((cells.take (40 - pre.length)).map trendRead) := by
  obtain ⟨htrend, hcells⟩ := h
  refine ⟨htrend, fun e he => ?_, ?_, ?_⟩
  · obtain ⟨o, -, rfl⟩ := List.mem_map.mp he
    exact ⟨rfl, rfl⟩
  · rw [map_offset_trendRead]
    exact (List.take_append_drop _ _).trans hcells
  · by_cases hall : cells.length ≤ 40 - pre.length
    · exact .inl (List.drop_eq_nil_of_le hall)
    · refine .inr ?_
      change (v.path.queue ++ (cells.take (40 - pre.length)).map trendRead).length = 40
      rw [hpre, List.length_append, List.length_map, List.length_take]
      omega

/-- R145: a flip attempt ends with its trend reads set up, or with none after a restart of the history. -/
theorem AttemptEnds.flip (h : AttemptEnds s v b d q pre) (hlen : pre.length ≤ 40)
    (hnew : ∀ o, 0x4000 ≤ o → pendingWrite pre o = none) :
    ∃ trend reads kept, (if q.restarted then v else v.setUpTrend) = v.trendOffered trend reads kept ∧
      trendSetUp s (v.trendOffered trend reads kept) q reads := by
  cases hr : q.restarted with
  | true =>
    have hnone : v = v.trendOffered [] [] [] := by
      rw [State.trendOffered, List.append_nil, ← h.kept, ← h.trend]
    have hset := trendSetUp_of_offered (s := s) (q := q) (trend := []) (cells := []) h.queue hlen (by
      simp only [hr, Bool.true_eq_false, false_and, if_false]
      exact ⟨rfl, rfl⟩)
    rw [List.take_nil, List.drop_nil] at hset
    exact ⟨[], [], [], hnone, hset⟩
  | false =>
    have hset := setUpTrend_eq h.admits (by rw [h.queue]; exact hnew) (by rw [h.queue]; exact hlen) h.kept h.trend
    rw [h.queue] at hset
    refine ⟨_, _, _, hset, trendSetUp_of_offered h.queue hlen ?_⟩
    rw [← h.trendPositions hr]
    by_cases hk : s.setting .trendSpan < s.setting .historyDepth
    · rw [← h.trendColumn hr hk]
      exact ⟨rfl, rfl⟩
    · have hnone : v.trendPositions = [] := if_neg fun hset => hk (by rw [← h.setting, ← h.setting]; exact hset.1)
      rw [hnone]
      exact ⟨rfl, rfl⟩

/-- R139: the attempt is made whatever trend reads it sets up. -/
theorem AttemptEnds.made_offered (h : AttemptEnds s v b d q pre) (trend : List TrendRead) (reads : List QEntry)
    (kept : List Nat) : attemptMade s (v.trendOffered trend reads kept) b d q := h.made

end

/-! ### The decision on the page (R140) -/

/-- R139: the memory has taken the last write, and the bus is free. -/
def State.lastWritten (s : State) (dt : Nat) (b : Issued) (d : Word) : State :=
  { s.elapse dt with
    mem := writeWord s.mem b.addr { enables := 15, data := d }, path := { s.path with bus := none } }

section
variable {s : State} {b : Issued} {d : Word} {q : Publication}

/-- R139: the completion makes the attempt. -/
theorem exec_flipDue (dt : Nat) (h : flipDue s b d q) :
    exec (.partAccessComplete dt) s = .next ((s.lastWritten dt b d).flipAttempt q) := by
  obtain ⟨hbus, hwrite, horigin, hrep, hheld, hqueue, hpub, hgroups, hkept, -⟩ := h
  have hdone : (s.elapse dt).accessDone b = s.lastWritten dt b d := by
    unfold State.accessDone QEntry.perform
    rw [hwrite]
    rfl
  have hpub' : (s.lastWritten dt b d).sweep.publication = some q := hpub
  have hpubdone : (s.lastWritten dt b d).publicationDone q = true := by
    have hqueue' : (s.lastWritten dt b d).path.queue = [] := hqueue
    have hbus' : (s.lastWritten dt b d).path.bus = none := rfl
    unfold State.publicationDone
    rw [hgroups, hkept, hqueue', hbus']
    rfl
  rw [exec_partAccessComplete_free dt hbus hheld, completeAccess_reported (s := s.elapse dt) hbus hrep, hdone, State.report,
    horigin]
  dsimp only
  rw [State.tryFlip, hpub']
  exact congrArg Host.Outcome.next (if_pos hpubdone)

/-- R140: the decision leaves what is not of the pages and of the hold. -/
theorem decide_kept (w : Sweep) : w.decide.head = w.head ∧ w.decide.written = w.written ∧ w.decide.trend = w.trend ∧
    w.decide.keptReads = w.keptReads ∧ w.decide.count = w.count ∧ w.decide.timer = w.timer := by
  unfold Sweep.decide
  split
  · exact ⟨rfl, rfl, rfl, rfl, rfl, rfl⟩
  · exact ⟨rfl, rfl, rfl, rfl, rfl, rfl⟩
  · split <;> exact ⟨rfl, rfl, rfl, rfl, rfl, rfl⟩

theorem decide_free {w : Sweep} (h : w.hold ≠ .held) : w.decide = w.flip ∧ w.mustOverride = false := by
  unfold Sweep.decide Sweep.mustOverride
  cases hh : w.hold with
  | held => exact absurd hh h
  | released => exact ⟨rfl, rfl⟩
  | overridden => exact ⟨rfl, rfl⟩

theorem mustOverride_iff {w : Sweep} (h : w.hold = .held) : w.mustOverride = true ↔ 2 ≤ w.deferredCount := by
  unfold Sweep.mustOverride Config.lastDeferral
  rw [h, Bool.and_eq_true, decide_eq_true_iff]
  exact ⟨fun hc => by omega, fun hc => ⟨rfl, by omega⟩⟩

theorem decide_deferred {w : Sweep} (h : w.hold = .held) (hm : w.mustOverride = false) :
    w.decide = { w with deferredFlip := true, deferredCount := w.deferredCount + 1 } := by
  unfold Sweep.decide
  rw [h]
  exact if_neg (by rw [hm]; exact Bool.false_ne_true)

theorem decide_forced {w : Sweep} (h : w.hold = .held) (hm : w.mustOverride = true) :
    w.decide = { w.flip with hold := .overridden } := by
  unfold Sweep.decide
  rw [h]
  exact if_pos hm

/-- R139: the head moves unless the history was restarted. -/
theorem advanceHead_eq (w : Sweep) (q : Publication) (depth : Nat) : w.advanceHead q depth =
    { w with
      head := if q.restarted then w.head else q.column
      written := if q.restarted then w.written else min depth (w.written + 1) } := by
  unfold Sweep.advanceHead
  cases q.restarted <;> rfl

/-- R139, R140: the sweep unit when the head has moved. -/
def State.headMoved (s : State) (q : Publication) : Sweep := s.sweep.advanceHead q (s.setting .historyDepth)

theorem posAt_decided (s : State) (q : Publication) (p : Pos) : (s.decided q).posAt p = { s.posAt p with leak := none } :=
  posAt_mapPos { s with sweep := s.headMoved q } (fun _ r => { r with leak := none }) p

/-- R139, R140: what the attempt leaves, but for a notice. -/
theorem decided_ends (dt : Nat) (h : flipDue s b d q) :
    AttemptEnds s ((s.lastWritten dt b d).decided q).unpublished b d q [] := by
  obtain ⟨-, -, -, -, -, hqueue, -, -, -, htrend, hkeptReads, hhup, hop⟩ := h
  obtain ⟨hhead, hwritten, htrend', hkept', hcount, htimer⟩ := decide_kept ((s.lastWritten dt b d).headMoved q)
  have hmoved := advanceHead_eq s.sweep q (s.setting .historyDepth)
  have hpos (p : Pos) := posAt_decided (s.lastWritten dt b d) q p
  exact
    { made := ⟨rfl, hhead.trans (congrArg Sweep.head hmoved :), hwritten.trans (congrArg Sweep.written hmoved :),
        fun p => (congrArg PosRec.leak (hpos p) :),
        fun p => ⟨(congrArg PosRec.state (hpos p) :), (congrArg PosRec.id (hpos p) :), (congrArg PosRec.epoch (hpos p) :)⟩,
        hcount.trans (congrArg Sweep.count hmoved :), htimer.trans (congrArg Sweep.timer hmoved :), rfl, rfl⟩
      queue := hqueue
      trend := htrend'.trans ((congrArg Sweep.trend hmoved :).trans htrend)
      kept := hkept'.trans ((congrArg Sweep.keptReads hmoved :).trans hkeptReads)
      admits := admits_iff.mpr ⟨hhup, fun h => absurd (hop.symm.trans h) (by decide)⟩
      snoop := rfl }

/-- R139, R145: an attempt that raises no notice. -/
theorem exec_unforced (dt : Nat) (h : flipDue s b d q) (hm : s.sweep.mustOverride = false) :
    ∃ trend reads kept, let t := ((s.lastWritten dt b d).decided q).unpublished.trendOffered trend reads kept
      exec (.partAccessComplete dt) s = .next t ∧ attemptMade s t b d q ∧ trendSetUp s t q reads ∧ t.path.queue = reads := by
  have hends := decided_ends dt h
  obtain ⟨trend, reads, kept, hflip, hset⟩ := hends.flip (Nat.zero_le _) (fun _ _ => rfl)
  have hattempt : (s.lastWritten dt b d).attempted q = ((s.lastWritten dt b d).decided q).unpublished := by
    have hm' : (s.lastWritten dt b d).sweep.mustOverride = false := hm
    rw [attempted_eq, hm']
    rfl
  refine ⟨trend, reads, kept, ?_, hends.made_offered trend reads kept, hset, ?_⟩
  · rw [exec_flipDue dt h, flipAttempt_eq, hattempt, hflip]
  · exact congrArg (· ++ reads) hends.queue

/-- R140, R183: the notice of a hold that gives way. -/
def State.overriddenNotice (s : State) (q : Publication) : Notice :=
  { kind := .holdOverridden, position := none, alert := none, tag := 0, id := 0,
    value := BitVec.ofNat 32 q.number.toNat, stamp := s.sweep.count }

/-- R183: a notice for which the ring and the queue have room, in RUN with the slot free. -/
theorem placeNotice_admitted {u : State} {n : Notice} (h : ringReady u) (hl : ¬u.losesNotice n) : u.placeNotice n =
    { u with
      path := { u.path with queue := u.path.queue ++ (noticeWrites n u.notices.write).map fun w =>
        { access := .write w.data, offset := w.offset, origin := .notice } }
      notices := { u.notices with write := u.notices.write + 1, inRing := u.notices.inRing ++ [n] } } := by
  obtain ⟨hnew, hdistinct⟩ := noticeWrites_new (n := n) h
  rw [placeNotice_ring hl, State.ringed]
  dsimp only
  rw [foldl_addWrite_new hnew hdistinct]

/-- R183: the queue entries of a notice at the slot `i`. -/
def noticeEntries (n : Notice) (i : BitVec 7) : List QEntry :=
  (noticeWrites n i).map fun w => { access := .write w.data, offset := w.offset, origin := .notice }

theorem length_noticeEntries (n : Notice) (i : BitVec 7) : (noticeEntries n i).length = 4 := by
  rw [noticeEntries, List.length_map, noticeWrites_eq, List.length_map, List.length_range]

/-- R183: the notice ring lies below the history. -/
theorem pendingWrite_noticeEntries (n : Notice) (i : BitVec 7) {o : Nat} (ho : 0x4000 ≤ o) :
    pendingWrite (noticeEntries n i) o = none := by
  have hi := i.isLt
  have hbelow : ∀ w ∈ noticeWrites n i, w.offset ≠ o := by
    intro w hw
    rw [noticeWrites_eq] at hw
    obtain ⟨k, hk, rfl⟩ := List.mem_map.mp hw
    have := List.mem_range.mp hk
    dsimp only
    omega
  unfold noticeEntries
  generalize noticeWrites n i = ws at hbelow
  induction ws with
  | nil => rfl
  | cons w ws ih =>
    obtain ⟨hw, hrest⟩ := List.forall_mem_cons.mp hbelow
    rw [List.map_cons]
    exact (if_neg hw).trans (ih hrest)

/-- R140, R183: the state after an attempt that overrides the hold, its notice in the ring. -/
def State.overrode (s : State) (n : Notice) : State :=
  { s with
    path := { s.path with queue := s.path.queue ++ noticeEntries n s.notices.write }
    notices := { s.notices with write := s.notices.write + 1, inRing := s.notices.inRing ++ [n] } }

/-- R140: an attempt that overrides the hold. -/
theorem attempted_forced (dt : Nat) (h : flipDue s b d q) (hm : s.sweep.mustOverride = true)
    (hroom : s.notices.write + 1 ≠ s.readIndex) : (s.lastWritten dt b d).attempted q =
      (((s.lastWritten dt b d).decided q).overrode (((s.lastWritten dt b d).decided q).overriddenNotice q)).unpublished := by
  obtain ⟨-, -, -, -, -, hqueue, -, -, -, -, -, hhup, hop⟩ := h
  have hm' : (s.lastWritten dt b d).sweep.mustOverride = true := hm
  rw [attempted_eq, hm']
  have hu : ((s.lastWritten dt b d).decided q).control = s.control ∧ ((s.lastWritten dt b d).decided q).path.queue = [] ∧
      ((s.lastWritten dt b d).decided q).notices = s.notices ∧
      ((s.lastWritten dt b d).decided q).readIndex = s.readIndex := ⟨rfl, hqueue, rfl, rfl⟩
  generalize (s.lastWritten dt b d).decided q = u at hu ⊢
  obtain ⟨hcontrol, hempty, hnotices, hread⟩ := hu
  have hready : ringReady u := ⟨by rw [hcontrol]; exact hhup, fun i => by rw [hempty]; rfl⟩
  have hrun : u.control.op = .run := by rw [hcontrol]; exact hop
  have hring : ¬u.losesNotice (u.overriddenNotice q) := by
    rw [losesNotice_iff hready hrun, hnotices, hread, hempty]
    exact not_or.mpr ⟨hroom, Nat.not_lt_zero _⟩
  have hraise : u.notify .holdOverridden none 0 0 (BitVec.ofNat 32 q.number.toNat) = u.overrode (u.overriddenNotice q) := by
    change u.raise (u.overriddenNotice q) = _
    unfold State.raise
    rw [hrun]
    exact placeNotice_admitted hready hring
  rw [hraise]
  rfl

/-- R139, R140, R145: an attempt that overrides the hold, with its notice in the ring. -/
theorem exec_forced (dt : Nat) (h : flipDue s b d q) (hm : s.sweep.mustOverride = true)
    (hroom : s.notices.write + 1 ≠ s.readIndex) :
    ∃ trend reads kept n, let u := (s.lastWritten dt b d).decided q
      let t := (u.overrode n).unpublished.trendOffered trend reads kept
      n = u.overriddenNotice q ∧ exec (.partAccessComplete dt) s = .next t ∧ attemptMade s t b d q ∧ trendSetUp s t q reads ∧
        t.path.queue.drop 4 = reads := by
  have hdecided := decided_ends dt h
  generalize hn : ((s.lastWritten dt b d).decided q).overriddenNotice q = n
  have hends : AttemptEnds s (((s.lastWritten dt b d).decided q).overrode n).unpublished b d q
      (noticeEntries n s.notices.write) :=
    { made := hdecided.made
      queue := by
        change ((s.lastWritten dt b d).decided q).path.queue ++ noticeEntries n s.notices.write = _
        rw [show ((s.lastWritten dt b d).decided q).path.queue = [] from hdecided.queue, List.nil_append]
      trend := hdecided.trend
      kept := hdecided.kept
      admits := hdecided.admits
      snoop := hdecided.snoop }
  obtain ⟨trend, reads, kept, hflip, hset⟩ := hends.flip (by rw [length_noticeEntries]; decide)
    (fun _ ho => pendingWrite_noticeEntries n _ ho)
  have hattempt := attempted_forced dt h hm hroom
  rw [hn] at hattempt
  refine ⟨trend, reads, kept, n, hn.symm, ?_, hends.made_offered trend reads kept, hset, ?_⟩
  · rw [exec_flipDue dt h, flipAttempt_eq, hattempt, hflip]
  · have hqueue : (((s.lastWritten dt b d).decided q).overrode n).unpublished.path.queue ++ reads =
        noticeEntries n s.notices.write ++ reads := congrArg (· ++ reads) hends.queue
    exact (congrArg (List.drop 4) hqueue).trans (List.drop_left' (length_noticeEntries n _))

/-- R139, R140, R145: the three outcomes of the attempt. -/
theorem flip_attempt (dt : Nat) (h : flipDue s b d q) :
    (s.sweep.hold ≠ .held →
      ∃ t, exec (.partAccessComplete dt) s = .next t ∧ attemptMade s t b d q ∧ t.sweep.front = s.sweep.front.other ∧
        t.sweep.published = true ∧ t.sweep.deferredFlip = false ∧ t.sweep.deferredCount = 0 ∧
        t.sweep.hold = s.sweep.hold ∧ trendSetUp s t q t.path.queue ∧ t.notices = s.notices) ∧
    (s.sweep.hold = .held → s.sweep.deferredCount < 2 →
      ∃ t, exec (.partAccessComplete dt) s = .next t ∧ attemptMade s t b d q ∧ t.sweep.front = s.sweep.front ∧
        t.sweep.published = s.sweep.published ∧ t.sweep.deferredFlip = true ∧
        t.sweep.deferredCount = s.sweep.deferredCount + 1 ∧ t.sweep.hold = .held ∧ trendSetUp s t q t.path.queue ∧
        t.notices = s.notices) ∧
    (s.sweep.hold = .held → 2 ≤ s.sweep.deferredCount → s.notices.write + 1 ≠ s.readIndex →
      ∃ t n, exec (.partAccessComplete dt) s = .next t ∧ attemptMade s t b d q ∧ t.sweep.front = s.sweep.front.other ∧
        t.sweep.published = true ∧ t.sweep.deferredFlip = false ∧ t.sweep.deferredCount = 0 ∧
        t.sweep.hold = .overridden ∧ trendSetUp s t q (t.path.queue.drop 4) ∧
        t.notices = { s.notices with write := s.notices.write + 1, inRing := s.notices.inRing ++ [n] } ∧
        n.kind = .holdOverridden ∧ n.position = none ∧ n.value = BitVec.ofNat 32 q.number.toNat) := by
  have hmoved := advanceHead_eq s.sweep q (s.setting .historyDepth)
  have hholds : (s.headMoved q).hold = s.sweep.hold ∧ (s.headMoved q).mustOverride = s.sweep.mustOverride ∧
      (s.headMoved q).front = s.sweep.front ∧ (s.headMoved q).published = s.sweep.published ∧
      (s.headMoved q).deferredCount = s.sweep.deferredCount := by
    rw [State.headMoved, hmoved]
    exact ⟨rfl, rfl, rfl, rfl, rfl⟩
  obtain ⟨hhold, hmust, hfront, hpublished, hcount⟩ := hholds
  have hsweep : ((s.lastWritten dt b d).decided q).sweep = (s.headMoved q).decide := rfl
  refine ⟨fun hfree => ?_, fun hheld hfew => ?_, fun hheld hmany hroom => ?_⟩
  · obtain ⟨hflip, hm⟩ := decide_free (w := s.headMoved q) (hhold ▸ hfree)
    obtain ⟨trend, reads, kept, hexec, hmade, hset, hqueue⟩ := exec_unforced dt h (hmust ▸ hm)
    rw [hflip] at hsweep
    refine ⟨_, hexec, hmade, ?_, ?_, ?_, ?_, ?_,
      (congrArg (trendSetUp s _ q) hqueue).mpr hset, rfl⟩
    · exact (congrArg Sweep.front hsweep).trans (congrArg Page.other hfront)
    · exact (congrArg Sweep.published hsweep)
    · exact (congrArg Sweep.deferredFlip hsweep)
    · exact (congrArg Sweep.deferredCount hsweep)
    · exact (congrArg Sweep.hold hsweep).trans hhold
  · have hm : s.sweep.mustOverride = false :=
      Bool.eq_false_of_not_eq_true fun hm => absurd ((mustOverride_iff hheld).mp hm) (by omega)
    have hdefer := decide_deferred (w := s.headMoved q) (hhold.trans hheld) (hmust.trans hm)
    obtain ⟨trend, reads, kept, hexec, hmade, hset, hqueue⟩ := exec_unforced dt h hm
    rw [hdefer] at hsweep
    refine ⟨_, hexec, hmade, ?_, ?_, ?_, ?_, ?_, (congrArg (trendSetUp s _ q) hqueue).mpr hset, rfl⟩
    · exact (congrArg Sweep.front hsweep).trans hfront
    · exact (congrArg Sweep.published hsweep).trans hpublished
    · exact (congrArg Sweep.deferredFlip hsweep)
    · exact (congrArg Sweep.deferredCount hsweep).trans (congrArg (· + 1) hcount)
    · exact (congrArg Sweep.hold hsweep).trans (hhold.trans hheld)
  · have hm : s.sweep.mustOverride = true := (mustOverride_iff hheld).mpr hmany
    have hforce := decide_forced (w := s.headMoved q) (hhold.trans hheld) (hmust.trans hm)
    obtain ⟨trend, reads, kept, n, hn, hexec, hmade, hset, hqueue⟩ := exec_forced dt h hm hroom
    rw [hforce] at hsweep
    refine ⟨_, n, hexec, hmade, ?_, ?_, ?_, ?_, ?_, (congrArg (trendSetUp s _ q) hqueue).mpr hset, rfl, ?_, ?_, ?_⟩
    · exact (congrArg Sweep.front hsweep).trans (congrArg Page.other hfront)
    · exact (congrArg Sweep.published hsweep)
    · exact (congrArg Sweep.deferredFlip hsweep)
    · exact (congrArg Sweep.deferredCount hsweep)
    · exact (congrArg Sweep.hold hsweep)
    · rw [hn]; rfl
    · rw [hn]; rfl
    · rw [hn]; rfl

end

end Sys2Proof.Machine
end

section
/-! The second word of a trend read returns (R145, R146). -/

namespace Sys2Proof.Machine
open Sys2Proof.Claim

/-- The lowest bit of a field of one bit. -/
theorem getLsbD_iff (w : Word) (i : Nat) : w.getLsbD i = true ↔ bits w i 1 = 1 := by
  rw [BitVec.getLsbD, Nat.testBit_eq_decide_div_mod_eq, decide_eq_true_iff, bits, pow_one]

/-! ### The word finds its read (R145) -/

/-- R145: the second word of a read that has its first makes the read full. -/
theorem give_second {x : TrendRead} (w : Word) : x.give (cellOffset x.column x.position + 4) w = { x with word1 := some w } := by
  unfold TrendRead.give
  rw [if_neg (by omega), if_pos rfl]

/-- R145: the read of another position of the column does not take the word. -/
theorem give_other {x y : TrendRead} (w : Word) (hcolumn : y.column = x.column) (hposition : y.position ≠ x.position) :
    y.give (cellOffset x.column x.position + 4) w = y := by
  have hne : y.position.val ≠ x.position.val := fun e => hposition (Fin.ext e)
  unfold TrendRead.give cellOffset
  rw [hcolumn, if_neg (by omega), if_neg (by omega)]

section
variable {s : State} {b : Issued} {w0 : Word} {x : TrendRead} {pre post : List TrendRead}

/-- R145: of the reads of the other positions none becomes full. -/
theorem give_filter (w : Word) {ys : List TrendRead}
    (hys : ∀ y ∈ ys, y.column = x.column ∧ y.position ≠ x.position ∧ (y.word0 = none ∨ y.word1 = none)) :
    (ys.map (fun y => y.give (cellOffset x.column x.position + 4) w)).filter TrendRead.full = [] ∧
      (ys.map (fun y => y.give (cellOffset x.column x.position + 4) w)).filter (fun y => !y.full) = ys := by
  have hmap : ys.map (fun y => y.give (cellOffset x.column x.position + 4) w) = ys := by
    refine (List.map_congr_left fun y hy => ?_).trans (List.map_id ys)
    obtain ⟨hcolumn, hposition, -⟩ := hys y hy
    exact give_other w hcolumn hposition
  have hempty : ∀ y ∈ ys, y.full = false := by
    intro y hy
    obtain ⟨-, -, h | h⟩ := hys y hy <;> simp [TrendRead.full, h]
  rw [hmap]
  exact ⟨List.filter_eq_nil_iff.mpr fun y hy => by rw [hempty y hy]; decide,
    List.filter_eq_self.mpr fun y hy => by rw [hempty y hy]; rfl⟩

/-- R145, R146: the second word of a read ends it and gives its position the two words. -/
theorem trendResult_second (w1 : Word) (htrend : s.sweep.trend = pre ++ x :: post) (h0 : x.word0 = some w0)
    (hothers : ∀ y ∈ pre ++ post, y.column = x.column ∧ y.position ≠ x.position ∧ (y.word0 = none ∨ y.word1 = none)) :
    s.trendResult (cellOffset x.column x.position + 4) w1 =
      ({ s with sweep := { s.sweep with trend := pre ++ post } } : State).completeTrend x.position w0 w1 := by
  obtain ⟨hpreFull, hpreRest⟩ := give_filter w1 (fun y hy => hothers y (List.mem_append_left post hy))
  obtain ⟨hpostFull, hpostRest⟩ := give_filter w1 (fun y hy => hothers y (List.mem_append_right pre hy))
  have hfull : ({ x with word1 := some w1 } : TrendRead).full = true := by simp [TrendRead.full, h0]
  unfold State.trendResult
  dsimp only
  rw [htrend, List.map_append, List.map_cons, give_second, List.filter_append, List.filter_append, hpreFull, hpreRest,
    List.filter_cons_of_pos hfull, List.filter_cons_of_neg (by rw [hfull]; decide), hpostFull, hpostRest]
  change State.finishTrend _ _ = _
  unfold State.finishTrend
  rw [h0]

end

/-! ### The leak rate (R146) -/

/-- R146: the old cell is valid, of the same epoch and some sweeps old, and the position is BOUND or SUSPECT. -/
def rateLive (s : State) (p : Pos) (w0 w1 : Word) : Prop :=
  bits w0 22 1 = 1 ∧ bits w1 0 8 = (s.posAt p).epoch.toNat ∧
    ((s.posAt p).state = .bound ∨ (s.posAt p).state = .suspect) ∧
    (s.sweep.count - BitVec.ofNat 16 (bits w1 16 16)).toNat ≠ 0

section
variable {s : State} {p : Pos} {w0 w1 : Word}

theorem rateLive_iff : rateLive s p w0 w1 ↔ (w0.getLsbD 22 && bits w1 0 8 == (s.posAt p).epoch.toNat &&
    (s.posAt p).state.evaluated && (s.sweep.count - BitVec.ofNat 16 (bits w1 16 16)).toNat != 0) = true := by
  rw [rateLive, ← getLsbD_iff, Bool.and_eq_true, Bool.and_eq_true, Bool.and_eq_true, beq_iff_eq, bne_iff_ne,
    BindState.evaluated, Bool.or_eq_true, decide_eq_true_iff, decide_eq_true_iff, and_assoc, and_assoc]

theorem rateOf_live {new : Nat} (hlive : rateLive s p w0 w1) (hcold : (s.posAt p).cold = some new) :
    s.rateOf p w0 w1 = some (leakRate (bits w0 0 12) new (s.sweep.count - BitVec.ofNat 16 (bits w1 16 16)).toNat
      (s.setting .sweepPeriod)) := by
  unfold State.rateOf
  dsimp only
  rw [hcold]
  exact if_pos (rateLive_iff.mp hlive)

theorem rateOf_none (h : ¬rateLive s p w0 w1 ∨ (s.posAt p).cold = none) : s.rateOf p w0 w1 = none := by
  unfold State.rateOf
  dsimp only
  cases hcold : (s.posAt p).cold with
  | none => rfl
  | some new =>
    have hdead : ¬rateLive s p w0 w1 := h.resolve_right (by rw [hcold]; exact Option.some_ne_none new)
    exact if_neg fun hl => hdead (rateLive_iff.mpr hl)

end

/-- R146: the leak rate of a position, evaluated. -/
theorem evalLeak_keeps (s : State) (p : Pos) (q : Int) :
    let t := (s.modPos p (fun r => { r with leak := some q })).evalLeak p q
    (t.posAt p).leak = some q ∧ sameBindings s t ∧ (∀ x, x ≠ p → t.posAt x = s.posAt x) ∧ t.mem = s.mem ∧
      t.pending = s.pending ∧ t.sweep = s.sweep := by
  intro t
  have hbase := evalLeak_base (s.modPos p (fun r => { r with leak := some q })) p q
  have htables := evalLeak_tables (s.modPos p (fun r => { r with leak := some q })) p q
  have hother (x : Pos) (hx : x ≠ p) : t.posAt x = s.posAt x :=
    (posAt_applyMove_other _ _ _ _ hx).trans (posAt_modPos_other _ _ _ _ hx)
  have hcore := core_of_tables htables p
  rw [posAt_modPos_same] at hcore
  have hsame : (t.posAt p).leak = some q ∧ (t.posAt p).state = (s.posAt p).state ∧ (t.posAt p).id = (s.posAt p).id ∧
      (t.posAt p).epoch = (s.posAt p).epoch :=
    ⟨(congrArg PosRec.leak hcore :), (congrArg PosRec.state hcore :), (congrArg PosRec.id hcore :),
      (congrArg PosRec.epoch hcore :)⟩
  obtain ⟨hleak, hbinding⟩ := hsame
  refine ⟨hleak, fun x => ?_, hother, (congrArg Base.mem hbase :), (congrArg Base.pending hbase :),
    (congrArg Base.sweep hbase :)⟩
  by_cases hx : x = p
  · rw [hx]
    exact hbinding
  · rw [hother x hx]
    exact ⟨rfl, rfl, rfl⟩

/-! ### The obligation -/

/-- R145: the completion of the second read of a cell. -/
theorem exec_trendSecond {s : State} {b : Issued} {w0 : Word} {x : TrendRead} {pre post : List TrendRead} (dt : Nat)
    (hbus : s.path.bus = some b)
    (hentry : b.entry = { access := .read, offset := cellOffset x.column x.position + 4, origin := .trend })
    (hrep : b.reported = true) (hheld : s.path.held = none) (htrend : s.sweep.trend = pre ++ x :: post)
    (h0 : x.word0 = some w0)
    (hothers : ∀ y ∈ pre ++ post, y.column = x.column ∧ y.position ≠ x.position ∧ (y.word0 = none ∨ y.word1 = none)) :
    exec (.partAccessComplete dt) s = .next (({ s.elapse dt with
      path := { s.path with bus := none }, sweep := { s.sweep with trend := pre ++ post } } : State).completeTrend
        x.position w0 (readWord s.mem b.addr)) := by
  have hdone : (s.elapse dt).accessDone b = { s.elapse dt with path := { s.path with bus := none } } := by
    unfold State.accessDone
    rw [hentry]
    rfl
  rw [exec_partAccessComplete_free dt hbus hheld, completeAccess_reported (s := s.elapse dt) hbus hrep, hdone, State.report,
    hentry]
  dsimp only
  exact congrArg Host.Outcome.next (trendResult_second (s := { s.elapse dt with path := { s.path with bus := none } })
    (readWord s.mem b.addr) htrend h0 hothers)

/-- Settles O33: `flip_attempt` for the last write; `trendResult_second` and `rateOf` for a trend read. -/
theorem lastWriteFlipsThePage : Obligations.LastWriteFlipsThePage := by
  refine ⟨fun dt b d q s h => flip_attempt dt h, ?_⟩
  intro dt b w0 x pre post s hbus hentry hrep hheld htrend h0 h1 hothers w1 elapsed live
  have hexec := exec_trendSecond dt hbus hentry hrep hheld htrend h0 hothers
  generalize hu : ({ s.elapse dt with
      path := { s.path with bus := none }, sweep := { s.sweep with trend := pre ++ post } } : State) = u at hexec ⊢
  have hlive : rateLive u x.position w0 w1 ↔ live := by rw [← hu]; exact Iff.rfl
  have hpos (p : Pos) : u.posAt p = s.posAt p := by rw [← hu]; rfl
  have hsame : u.sweep.trend = pre ++ post ∧ u.sweep.count = s.sweep.count ∧ u.setting .sweepPeriod = s.setting .sweepPeriod ∧
      u.mem = s.mem ∧ u.pending = s.pending := by
    rw [← hu]
    exact ⟨rfl, rfl, rfl, rfl, rfl⟩
  obtain ⟨hlist, hcount, hperiod, hmem, hpending⟩ := hsame
  refine ⟨fun new hl hcold => ?_, fun hdead => ?_⟩
  · have hrate := rateOf_live (hlive.mpr hl) ((congrArg PosRec.cold (hpos x.position)).trans hcold)
    rw [hcount, hperiod] at hrate
    unfold State.completeTrend at hexec
    rw [hrate] at hexec
    obtain ⟨hleak, hbindings, hother, hmem', hpending', hsweep⟩ := evalLeak_keeps u x.position
      (leakRate (bits w0 0 12) new elapsed (s.setting .sweepPeriod))
    refine ⟨_, hexec, (congrArg Sweep.trend hsweep).trans hlist, hleak, rfl, fun p => ?_,
      fun p hp => (hother p hp).trans (hpos p), hmem'.trans hmem, hpending'.trans hpending⟩
    rw [← hpos p]
    exact hbindings p
  · have hrate := rateOf_none (s := u) (p := x.position) (w0 := w0) (w1 := w1)
      (hdead.imp (fun h hl => h (hlive.mp hl)) (fun h => (congrArg PosRec.cold (hpos x.position)).trans h))
    unfold State.completeTrend at hexec
    rw [hrate] at hexec
    exact hexec

end Sys2Proof.Machine
end
